-- ==== Sys2Proof/Word.lean ====
section
/-!
DEFINITION. Sys2Proof/Word.lean: the widths the spec fixes (00_scope.md R7) and nothing else.
-/

namespace Sys2Proof

/-- A 32-bit register or value (00_scope.md R7, 10_state.md R23). -/
abbrev Word := BitVec 32

/-- A 16-bit start address, register count or CRC (00_scope.md R7). -/
abbrev Half := BitVec 16

/-- One byte of the wire (00_scope.md R7). -/
abbrev Byte := BitVec 8

end Sys2Proof
end

