-- ==== Sys2Proof/Machine/Frame.lean ====
section
/-!
DEFINITION. Sys2Proof/Machine/Frame.lean: the CRC function (40_crc.md R130, R131), byte order
(20_memory.md R72) and the shapes of the wire frames (30_encoding.md R100 to R105, 41_frame_codec.md R150 to
R152), as pure functions of bytes. No state.
-/

namespace Sys2Proof.Machine

open Sys2Proof

/-- One of the eight shifts of `crc_step` (40_crc.md R130): logical right shift, then XOR with 0xA001 if the
bit shifted out was 1. -/
def crcBit (c : Half) : Half :=
  if c.getLsbD 0 then (c >>> 1) ^^^ 0xA001#16 else c >>> 1

/-- `n` shifts in a row. -/
def crcBits : Nat → Half → Half
  | 0, c => c
  | n + 1, c => crcBits n (crcBit c)

/-- `crc_step(c, b)` (40_crc.md R130). -/
def crcStep (c : Half) (b : Byte) : Half :=
  crcBits 8 (c ^^^ b.setWidth 16)

/-- The CRC initial value (40_crc.md R131, 00_scope.md R9). -/
def crcInit : Half := 0xFFFF#16

/-- `crc16(s)` (40_crc.md R131). -/
def crc16 (s : List Byte) : Half :=
  s.foldl crcStep crcInit

/-- `hi8(x) = x[15:8]` (00_scope.md R10). -/
def hi8 (x : Half) : Byte := x.extractLsb' 8 8

/-- `lo8(x) = x[7:0]` (00_scope.md R10). -/
def lo8 (x : Half) : Byte := x.extractLsb' 0 8

/-- A 16-bit field on the wire, high byte first (30_encoding.md R104). -/
def be16 (x : Half) : List Byte := [hi8 x, lo8 x]

/-- `be32(v)` (41_frame_codec.md R152). -/
def be32 (v : Word) : List Byte :=
  [v.extractLsb' 24 8, v.extractLsb' 16 8, v.extractLsb' 8 8, v.extractLsb' 0 8]

/-- The inverse of `be32`: "byte0<<24 | byte1<<16 | byte2<<8 | byte3" (41_frame_codec.md R153). -/
def word32 (b0 b1 b2 b3 : Byte) : Word :=
  (b0.setWidth 32 <<< 24) ||| (b1.setWidth 32 <<< 16) ||| (b2.setWidth 32 <<< 8) ||| b3.setWidth 32

/-- A 16-bit value from its bytes, the high one first (30_encoding.md R104). -/
def half16 (hi lo : Byte) : Half :=
  (hi.setWidth 16 <<< 8) ||| lo.setWidth 16

/-- The CRC trailer, low byte first (30_encoding.md R105). -/
def trailer (c : Half) : List Byte := [lo8 c, hi8 c]

/-- A received trailer: `zext_16(b_lo) | (zext_16(b_hi) << 8)` (30_encoding.md R105). -/
def trailerCrc (bLo bHi : Byte) : Half :=
  bLo.setWidth 16 ||| (bHi.setWidth 16 <<< 8)

/-- A whole frame from its body: the CRC is computed when the frame is sent (41_frame_codec.md R154). -/
def withTrailer (body : List Byte) : List Byte :=
  body ++ trailer (crc16 body)

/-- The first six bytes of a read request; the count is always 2 (30_encoding.md R101). -/
def bodyRead (st : Byte) (addr : Half) : List Byte :=
  [st, 0x03#8] ++ be16 addr ++ be16 2#16

/-- `build_read(st, A)`: the whole 8-byte read request (41_frame_codec.md R150). -/
def buildRead (st : Byte) (addr : Half) : List Byte :=
  withTrailer (bodyRead st addr)

/-- The payload of a write: each value big-endian, in order (41_frame_codec.md R151). -/
def payload (vals : List Word) : List Byte :=
  vals.flatMap be32

/-- `body_write(st, A, vals)`: a write frame without its trailer (41_frame_codec.md R151). -/
def bodyWrite (st : Byte) (addr : Half) (vals : List Word) : List Byte :=
  [st, 0x10#8] ++ be16 addr ++ be16 (BitVec.ofNat 16 (2 * vals.length))
    ++ [BitVec.ofNat 8 (4 * vals.length)] ++ payload vals

/-- The first seven bytes of a one-value read response (30_encoding.md R102 with byte_count 4). -/
def bodyResponse (st fn : Byte) (v : Word) : List Byte :=
  [st, fn, 0x04#8] ++ be32 v

end Sys2Proof.Machine
end

