-- ==== Sys2Proof/Syntax.lean ====
section
/-!
DEFINITION. Sys2Proof/Syntax.lean: one constructor per row of spec/opcode_table.json, in the table's order.
31 host command words (30_encoding.md R92) and 5 wire frames (30_encoding.md R101 to R103).
-/

namespace Sys2Proof

/-- An instruction: a legal host command word, or a frame on the wire. A field named `id` is the command
word's ID byte (30_encoding.md R94); a field named `crc` is the frame's trailer as a 16-bit value
(30_encoding.md R105). -/
inductive Instr where
  | crcInit
  | crcFeed
  | readStatus (id : Byte)
  | readPosition (id : Byte)
  | rioStart (id : Byte)
  | rioHome (id : Byte)
  | rioStop (id : Byte)
  | rioFree (id : Byte)
  | rioReset (id : Byte)
  | rioJogFwd (id : Byte)
  | rioJogBwd (id : Byte)
  | rioClear (id : Byte)
  | netsel (id : Byte)
  | jogsteps (id : Byte)
  | jogspeed (id : Byte)
  | origin (id : Byte)
  | dd (id : Byte)
  | batchPos
  | batchVel
  | batchMode
  | batchAcc
  | batchDec
  | cancel
  | stagePos (id : Byte)
  | stageVel (id : Byte)
  | stageMode (id : Byte)
  | stageAcc (id : Byte)
  | stageDec (id : Byte)
  | stageCur (id : Byte)
  | tick
  | update
  | wireReadReq (st : Byte) (addr : Half) (crc : Half)
  | wireReadResp (st fn : Byte) (v : Word) (crc : Half)
  | wireWrite1 (st : Byte) (addr : Half) (v : Word) (crc : Half)
  | wireWriteDd (st : Byte) (addr : Half) (position velocity accel decel current trigger : Word) (crc : Half)
  | wireWriteBatch (addr : Half) (vals : List Word) (crc : Half)
  deriving DecidableEq, Repr

end Sys2Proof
end

