-- ==== Sys2Proof/Decode.lean ====
section
/-!
DEFINITION. Sys2Proof/Decode.lean: the decoder, total on every command word and every byte sequence, which
rejects by name (30_encoding.md R90 to R97, R100 to R105), and after it the encoder, written from the same
tables. `decodeTableWord` is the decoder on words numbered as spec/opcode_table.json numbers them.
-/

namespace Sys2Proof

open Sys2Proof.Machine

/-- What reaches the block from outside as one unit: a 32-bit word written to CMD, or bytes on the line. -/
inductive Code where
  | command (w : Word)
  | frame (bytes : List Byte)
  deriving DecidableEq, Repr

/-- Why a code stands for no row of the table. The first four are the conditions (a) to (d) of
30_encoding.md R96, each of which raises BADCMD. The others are said of bytes on the line, which then are no
frame of 30_encoding.md R101 to R103 (they still arrive: 20_memory.md R78). -/
inductive DecodeError where
  | badOp
  | badRsv
  | badSel
  | badId
  | badLength
  | badFunction
  | badCount
  | badStation
  deriving DecidableEq, Repr

/-- The operation codes of 30_encoding.md R92. -/
inductive Opcode where
  | crcInit
  | crcFeed
  | issueRead
  | rio
  | netSelect
  | jogSteps
  | jogSpeed
  | originOffset
  | directDrive
  | batchWrite
  | cancelWrite
  | stage
  | tick
  | update
  deriving DecidableEq, Repr

/-- The OP byte of each operation (30_encoding.md R92). -/
def Opcode.code : Opcode → Byte
  | .crcInit      => 0x01#8
  | .crcFeed      => 0x02#8
  | .issueRead    => 0x10#8
  | .rio          => 0x20#8
  | .netSelect    => 0x21#8
  | .jogSteps     => 0x22#8
  | .jogSpeed     => 0x23#8
  | .originOffset => 0x24#8
  | .directDrive  => 0x25#8
  | .batchWrite   => 0x26#8
  | .cancelWrite  => 0x27#8
  | .stage        => 0x30#8
  | .tick         => 0x40#8
  | .update       => 0x41#8

/-- Every operation, in the order of 30_encoding.md R92. -/
def Opcode.all : List Opcode :=
  [.crcInit, .crcFeed, .issueRead, .rio, .netSelect, .jogSteps, .jogSpeed, .originOffset, .directDrive,
   .batchWrite, .cancelWrite, .stage, .tick, .update]

/-- The operation of an OP byte; `none` is condition (a) of 30_encoding.md R96. -/
def Opcode.ofByte (b : Byte) : Option Opcode := Opcode.all.find? fun o => o.code == b

/-- The ID column of 30_encoding.md R92: true where the field must be 0. -/
def Opcode.idFixed : Opcode → Bool
  | .crcInit | .crcFeed | .batchWrite | .cancelWrite | .tick | .update => true
  | .issueRead | .rio | .netSelect | .jogSteps | .jogSpeed | .originOffset | .directDrive | .stage => false

/-- The instructions of an operation, by selector value 0, 1, 2, ... (30_encoding.md R92, R93). -/
def Opcode.forms : Opcode → List (Byte → Instr)
  | .crcInit      => [fun _ => .crcInit]
  | .crcFeed      => [fun _ => .crcFeed]
  | .issueRead    => [.readStatus, .readPosition]
  | .rio          =>
      [.rioStart, .rioHome, .rioStop, .rioFree, .rioReset, .rioJogFwd, .rioJogBwd, .rioClear]
  | .netSelect    => [.netsel]
  | .jogSteps     => [.jogsteps]
  | .jogSpeed     => [.jogspeed]
  | .originOffset => [.origin]
  | .directDrive  => [.dd]
  | .batchWrite   =>
      [fun _ => .batchPos, fun _ => .batchVel, fun _ => .batchMode, fun _ => .batchAcc, fun _ => .batchDec]
  | .cancelWrite  => [fun _ => .cancel]
  | .stage        => [.stagePos, .stageVel, .stageMode, .stageAcc, .stageDec, .stageCur]
  | .tick         => [fun _ => .tick]
  | .update       => [fun _ => .update]

/-- The instruction an operation and its selector name; `none` is condition (c) of 30_encoding.md R96. -/
def Opcode.instr (o : Opcode) (sel id : Byte) : Option Instr :=
  match o.forms[sel.toNat]? with
  | some form => some (form id)
  | none => none

/-- The four fields of a command word (30_encoding.md R90). -/
def opField (w : Word) : Byte := w.extractLsb' 24 8

/-- SEL, bits 23:16. -/
def selField (w : Word) : Byte := w.extractLsb' 16 8

/-- ID, bits 15:8; zero-extended wherever it is used as a number (30_encoding.md R94). -/
def idField (w : Word) : Byte := w.extractLsb' 8 8

/-- RSV, bits 7:0. -/
def rsvField (w : Word) : Byte := w.extractLsb' 0 8

/-- Decode a command word, in the check order of 30_encoding.md R97. -/
def decodeCommand (w : Word) : Except DecodeError Instr :=
  match Opcode.ofByte (opField w) with
  | none => .error .badOp
  | some o =>
    if rsvField w ≠ 0#8 then .error .badRsv
    else
      match o.instr (selField w) (idField w) with
      | none => .error .badSel
      | some i => if o.idFixed && idField w != 0#8 then .error .badId else .ok i

/-- A read request (30_encoding.md R101): 8 bytes, function 0x03, count 2. -/
def decodeReadReq : List Byte → Except DecodeError Instr
  | [st, f, aHi, aLo, nHi, nLo, cLo, cHi] =>
    if f ≠ 0x03#8 then .error .badFunction
    else if half16 nHi nLo ≠ 2#16 then .error .badCount
    else .ok (.wireReadReq st (half16 aHi aLo) (trailerCrc cLo cHi))
  | _ => .error .badLength

/-- A one-value read response (30_encoding.md R102): 9 bytes, byte_count 4, any function byte (R106). -/
def decodeReadResp : List Byte → Except DecodeError Instr
  | [st, f, n, b0, b1, b2, b3, cLo, cHi] =>
    if n ≠ 0x04#8 then .error .badCount
    else .ok (.wireReadResp st f (word32 b0 b1 b2 b3) (trailerCrc cLo cHi))
  | _ => .error .badLength

/-- The values and the trailer that follow the byte count of a write (30_encoding.md R103). -/
def splitPayload : List Byte → Option (List Word × Half)
  | [cLo, cHi] => some ([], trailerCrc cLo cHi)
  | b0 :: b1 :: b2 :: b3 :: rest =>
    match splitPayload rest with
    | some (vals, crc) => some (word32 b0 b1 b2 b3 :: vals, crc)
    | none => none
  | _ => none

/-- A write request (30_encoding.md R103): function 0x10, register count 2n and byte count 4n for its n
values, 1 ≤ n ≤ 60. One value is WIRE.WRITE_1, six are WIRE.WRITE_DD, any other number is WIRE.WRITE_BATCH,
which goes to station 0 (41_frame_codec.md R163; log entry 6). -/
def decodeWriteReq : List Byte → Except DecodeError Instr
  | st :: f :: aHi :: aLo :: nHi :: nLo :: n :: rest =>
    if f ≠ 0x10#8 then .error .badFunction
    else
      match splitPayload rest with
      | none => .error .badLength
      | some (vals, crc) =>
        if vals.length < 1 ∨ 60 < vals.length then .error .badLength
        else if half16 nHi nLo ≠ BitVec.ofNat 16 (2 * vals.length)
            ∨ n ≠ BitVec.ofNat 8 (4 * vals.length) then .error .badCount
        else
          match vals with
          | [v] => .ok (.wireWrite1 st (half16 aHi aLo) v crc)
          | [p, v, a, d, i, t] => .ok (.wireWriteDd st (half16 aHi aLo) p v a d i t crc)
          | vals =>
            if st ≠ 0#8 then .error .badStation
            else .ok (.wireWriteBatch (half16 aHi aLo) vals crc)
  | _ => .error .badLength

/-- Decode the bytes of one frame on the line; the length picks the shape (30_encoding.md R107). -/
def decodeFrame (bs : List Byte) : Except DecodeError Instr :=
  if bs.length = 8 then decodeReadReq bs
  else if bs.length = 9 then decodeReadResp bs
  else decodeWriteReq bs

/-- The decoder. -/
def decode : Code → Except DecodeError Instr
  | .command w => decodeCommand w
  | .frame bs => decodeFrame bs

/-- `OP<<24 | SEL<<16 | ID<<8` (30_encoding.md R99). -/
def commandWord (o : Opcode) (sel id : Byte) : Word :=
  (o.code.setWidth 32 <<< 24) ||| (sel.setWidth 32 <<< 16) ||| (id.setWidth 32 <<< 8)

/-- The encoder: the command word of 30_encoding.md R92, R93, R99, or the frame of R101 to R103. -/
def encode : Instr → Code
  | .crcInit            => .command (commandWord .crcInit 0#8 0#8)
  | .crcFeed            => .command (commandWord .crcFeed 0#8 0#8)
  | .readStatus id      => .command (commandWord .issueRead 0#8 id)
  | .readPosition id    => .command (commandWord .issueRead 1#8 id)
  | .rioStart id        => .command (commandWord .rio 0#8 id)
  | .rioHome id         => .command (commandWord .rio 1#8 id)
  | .rioStop id         => .command (commandWord .rio 2#8 id)
  | .rioFree id         => .command (commandWord .rio 3#8 id)
  | .rioReset id        => .command (commandWord .rio 4#8 id)
  | .rioJogFwd id       => .command (commandWord .rio 5#8 id)
  | .rioJogBwd id       => .command (commandWord .rio 6#8 id)
  | .rioClear id        => .command (commandWord .rio 7#8 id)
  | .netsel id          => .command (commandWord .netSelect 0#8 id)
  | .jogsteps id        => .command (commandWord .jogSteps 0#8 id)
  | .jogspeed id        => .command (commandWord .jogSpeed 0#8 id)
  | .origin id          => .command (commandWord .originOffset 0#8 id)
  | .dd id              => .command (commandWord .directDrive 0#8 id)
  | .batchPos           => .command (commandWord .batchWrite 0#8 0#8)
  | .batchVel           => .command (commandWord .batchWrite 1#8 0#8)
  | .batchMode          => .command (commandWord .batchWrite 2#8 0#8)
  | .batchAcc           => .command (commandWord .batchWrite 3#8 0#8)
  | .batchDec           => .command (commandWord .batchWrite 4#8 0#8)
  | .cancel             => .command (commandWord .cancelWrite 0#8 0#8)
  | .stagePos id        => .command (commandWord .stage 0#8 id)
  | .stageVel id        => .command (commandWord .stage 1#8 id)
  | .stageMode id       => .command (commandWord .stage 2#8 id)
  | .stageAcc id        => .command (commandWord .stage 3#8 id)
  | .stageDec id        => .command (commandWord .stage 4#8 id)
  | .stageCur id        => .command (commandWord .stage 5#8 id)
  | .tick               => .command (commandWord .tick 0#8 0#8)
  | .update             => .command (commandWord .update 0#8 0#8)
  | .wireReadReq st addr crc => .frame (bodyRead st addr ++ trailer crc)
  | .wireReadResp st fn v crc => .frame (bodyResponse st fn v ++ trailer crc)
  | .wireWrite1 st addr v crc => .frame (bodyWrite st addr [v] ++ trailer crc)
  | .wireWriteDd st addr p v a d i t crc => .frame (bodyWrite st addr [p, v, a, d, i, t] ++ trailer crc)
  | .wireWriteBatch addr vals crc => .frame (bodyWrite 0#8 addr vals ++ trailer crc)

/-- `n` bytes of a number, the least significant first (the table's numbering of a row made of bytes, log
entry 13). -/
def bytesOfNat : Nat → Nat → List Byte
  | 0, _ => []
  | n + 1, w => BitVec.ofNat 8 w :: bytesOfNat n (w / 256)

/-- A row's bits as a code: up to 32 bits are a command word, more are the bytes of a frame, the first byte
in bits 7..0. Bits above `nbits` are 0. -/
def codeOfTableWord (nbits w : Nat) : Code :=
  if nbits ≤ 32 then .command (BitVec.ofNat 32 (w % 2 ^ nbits))
  else .frame (bytesOfNat ((nbits + 7) / 8) (w % 2 ^ nbits))

/-- The instruction the decoder reads from a table row's bits. -/
def decodeTableWord (nbits w : Nat) : Option Instr :=
  (decode (codeOfTableWord nbits w)).toOption

end Sys2Proof
end

