-- ==== Sys2Proof/Config.lean ====
section
/-!
DEFINITION. Sys2Proof/Config.lean: the named parameters of 00_scope.md R8, which the source leaves open.
They are arguments of the model: State carries one `Params`, no step changes it, and every statement over
all states is a statement over all parameter values (log entry 1).
-/

namespace Sys2Proof

/-- `RIO_MASK[c]`, one 32-bit mask per remote-IO command (00_scope.md R8, 30_encoding.md R93). -/
structure RioMasks where
  start  : Word
  home   : Word
  stop   : Word
  free   : Word
  reset  : Word
  jogFwd : Word
  jogBwd : Word
  clear  : Word
  deriving DecidableEq, Repr

/-- `ADDR_BATCH[k]`, one start address per batch kind (00_scope.md R8). -/
structure BatchAddrs where
  pos  : Half
  vel  : Half
  mode : Half
  acc  : Half
  dec  : Half
  deriving DecidableEq, Repr

/-- The parameters of 00_scope.md R8, each under its own name. -/
structure Params where
  nMotors      : Nat
  wqDepth      : Nat
  rqDepth      : Nat
  readyDepth   : Nat
  addrStatus   : Half
  addrPosition : Half
  addrRio      : Half
  addrNetsel   : Half
  addrJogsteps : Half
  addrJogspeed : Half
  addrOrigin   : Half
  addrDd       : Half
  addrBatch    : BatchAddrs
  rioMask      : RioMasks
  t0           : Word
  deriving DecidableEq, Repr

/-- The legal ranges of 00_scope.md R8; addresses, masks and `T0` range over their whole type. -/
abbrev Params.Ok (p : Params) : Prop :=
  (1 ≤ p.nMotors ∧ p.nMotors ≤ 60) ∧ (1 ≤ p.wqDepth ∧ p.wqDepth ≤ 255)
    ∧ (1 ≤ p.rqDepth ∧ p.rqDepth ≤ 255) ∧ 1 ≤ p.readyDepth

/-- The example values of 95_test_vectors.md section 0, which that file calls "examples for the vectors
only". DESIGN CHOICE: State.reset carries them (log entry 1, unsafe for a claim about State.reset alone). -/
def Params.vectorValues : Params where
  nMotors      := 2
  wqDepth      := 4
  rqDepth      := 4
  readyDepth   := 4
  addrStatus   := 0x0100
  addrPosition := 0x0200
  addrRio      := 0x0300
  addrNetsel   := 0x0500
  addrJogsteps := 0x0700
  addrJogspeed := 0x0710
  addrOrigin   := 0x0720
  addrDd       := 0x0600
  addrBatch    := { pos := 0x0400, vel := 0x0410, mode := 0x0420, acc := 0x0430, dec := 0x0440 }
  rioMask      := { start := 0x01, home := 0x02, stop := 0x04, free := 0x08
                    reset := 0x10, jogFwd := 0x20, jogBwd := 0x40, clear := 0x80 }
  t0           := 0

end Sys2Proof
end

