-- ==== Sys2Proof/Machine/State.lean ====
section
/-!
DEFINITION. Sys2Proof/Machine/State.lean: every piece of state of 10_state.md R20 to R51, the model's own
fields (the parameters and the environment, log entries 1 to 4 and 8), the reasons a step can stop, and the
state after reset (10_state.md R51, 70_reset_and_hazards.md R370, R371). Plain data.
-/

namespace Sys2Proof.Machine

open Sys2Proof

/-- `register_kind` of a PendingRequest (10_state.md R42). -/
inductive RegKind where
  | status
  | position
  deriving DecidableEq, Repr

/-- `state` of a PendingRequest (10_state.md R42). -/
inductive ReqState where
  | created
  | awaitingResponse
  deriving DecidableEq, Repr

/-- One queued read (10_state.md R42). -/
structure PendingRequest where
  motorId      : Byte
  kind         : RegKind
  state        : ReqState
  ticksWaited  : Word
  timeoutTicks : Word
  deriving DecidableEq, Repr

/-- The operand registers ARG0..ARG5 (10_state.md R26). -/
structure ArgRegs where
  arg0 : Word
  arg1 : Word
  arg2 : Word
  arg3 : Word
  arg4 : Word
  arg5 : Word
  deriving DecidableEq, Repr

/-- `P_STATE` (10_state.md R44). -/
inductive ParserState where
  | address
  | function
  | size
  | data
  | crc
  deriving DecidableEq, Repr

/-- The parser's registers (10_state.md R44): `P_STATE`, `P_IDX`, `P_STATION`, `P_FUNC`, `P_SIZE`,
`P_DATA[0..254]` (a list of 255 bytes), `P_ACC`, `P_CRCLO`. -/
structure Parser where
  state   : ParserState
  idx     : Byte
  station : Byte
  func    : Byte
  size    : Byte
  data    : List Byte
  acc     : Half
  crcLo   : Byte
  deriving DecidableEq, Repr

/-- A frame the parser accepted (10_state.md R45). -/
structure Response where
  stationId : Byte
  function  : Byte
  byteCount : Byte
  data      : List Byte
  crc16     : Half
  deriving DecidableEq, Repr

/-- The value kinds `k` of the Register Buffer (10_state.md R40, R46). -/
inductive RbKind where
  | pos
  | vel
  | mode
  | acc
  | dec
  | cur
  deriving DecidableEq, Repr

/-- The Register Buffer `RB[k][m]` (10_state.md R46): for each kind the values of the motors 1..N_MOTORS, motor
`m` at index `m - 1`. Slot 0 holds nothing, so there is no entry for it. -/
structure RegisterBuffer where
  pos  : List Word
  vel  : List Word
  mode : List Word
  acc  : List Word
  dec  : List Word
  cur  : List Word
  deriving DecidableEq, Repr

/-- The result registers of one motor (10_state.md R47). -/
structure MotorResult where
  pos    : Word
  stat   : Word
  svalid : Bool
  pvalid : Bool
  deriving DecidableEq, Repr

/-- One action from outside the block (00_scope.md R15): a host access to the window (10_state.md R23), a
change of the transport's open state, bytes arriving on the receive line, or reset. -/
inductive Event where
  | hostWrite (off : BitVec 12) (v : Word)
  | hostRead (off : BitVec 12)
  | setOpen (b : Bool)
  | lineBytes (bs : List Byte)
  | reset
  deriving DecidableEq, Repr

/-- The block's surroundings, no state of the block (10_state.md R49, R50; log entries 2 and 8): the
transport's open bit, the bytes it holds for the next drain, the frames sent so far and the values read so
far (oldest first), and the actions to come (next first). -/
structure Env where
  isOpen : Bool
  rx     : List Byte
  tx     : List (List Byte)
  reads  : List Word
  agenda : List Event
  deriving DecidableEq, Repr

/-- The machine. Field by field: 00_scope.md R8 (`params`), 10_state.md R25 to R36 (`cmd` to `cntTick`; `err`
holds the ten flags of R28), R41 to R45 (`pendingWrites` to `ready`), R46 (`rb`), R47 (`results`, motor `m` at
index `m - 1`), R49 and R50 (`env`). -/
structure State where
  params        : Params
  cmd           : Word
  args          : ArgRegs
  crcReg        : Half
  err           : BitVec 10
  cfgInterval   : Word
  cfgTimeout    : Word
  timeRef       : Word
  cntCrcErr     : Word
  cntTimeout    : Word
  cntUnsol      : Word
  cntResolved   : Word
  cntTx         : Word
  cntTick       : Word
  pendingWrites : List (List Byte)
  pendingReads  : List PendingRequest
  parser        : Parser
  ready         : List Response
  rb            : RegisterBuffer
  results       : List MotorResult
  env           : Env
  deriving DecidableEq, Repr

/-- Why the machine stops with a fault: never. The spec's errors set flags and the block goes on
(60_exceptions.md R330, 43_scheduler.md R265), so there is no constructor (log entry 9). -/
inductive Fault where
  deriving DecidableEq, Repr

/-- Why an instruction has no meaning. -/
inductive Refusal where
  /-- Raised only by an arm of `exec` whose instruction has no meaning yet. Safe: nothing can be proved of
  such a step. No arm raises it. -/
  | notModelled (mnemonic : String)
  deriving DecidableEq, Repr

/-- The operand registers after reset (10_state.md R26, R51). -/
def ArgRegs.reset : ArgRegs where
  arg0 := 0
  arg1 := 0
  arg2 := 0
  arg3 := 0
  arg4 := 0
  arg5 := 0

/-- The parser after reset (10_state.md R44, R51). -/
def Parser.reset : Parser where
  state   := .address
  idx     := 0
  station := 0
  func    := 0
  size    := 0
  data    := List.replicate 255 0
  acc     := 0xFFFF
  crcLo   := 0

/-- The Register Buffer after reset: 0 in every slot of `n` motors (10_state.md R46, R51). -/
def RegisterBuffer.reset (n : Nat) : RegisterBuffer where
  pos  := List.replicate n 0
  vel  := List.replicate n 0
  mode := List.replicate n 0
  acc  := List.replicate n 0
  dec  := List.replicate n 0
  cur  := List.replicate n 0

/-- A motor's result registers after reset (10_state.md R47, R51). -/
def MotorResult.reset : MotorResult where
  pos    := 0
  stat   := 0
  svalid := false
  pvalid := false

/-- The block after reset, for any parameters and any surroundings (10_state.md R51, 70_reset_and_hazards.md
R370; R371: reset does nothing to the transport). -/
def State.resetWith (p : Params) (e : Env) : State where
  params        := p
  cmd           := 0
  args          := ArgRegs.reset
  crcReg        := 0xFFFF
  err           := 0
  cfgInterval   := 50
  cfgTimeout    := 3
  timeRef       := p.t0
  cntCrcErr     := 0
  cntTimeout    := 0
  cntUnsol      := 0
  cntResolved   := 0
  cntTx         := 0
  cntTick       := 0
  pendingWrites := []
  pendingReads  := []
  parser        := Parser.reset
  ready         := []
  rb            := RegisterBuffer.reset p.nMotors
  results       := List.replicate p.nMotors MotorResult.reset
  env           := e

/-- Surroundings in which nothing has happened: the transport is open (as 95_test_vectors.md section 0 takes
it), holds no byte, and no action is to come. DESIGN CHOICE (log entry 4). -/
def Env.initial : Env where
  isOpen := true
  rx     := []
  tx     := []
  reads  := []
  agenda := []

/-- The machine right after reset, with the example parameters of 95_test_vectors.md section 0. DESIGN CHOICE
(log entries 1 and 4): the parameters and the surroundings, which the spec leaves open; every register has
the value of 10_state.md R51. -/
def State.reset : State := State.resetWith Params.vectorValues Env.initial

end Sys2Proof.Machine
end

