-- ==== Sys2Proof/Machine/Flags.lean ====
section
/-!
DEFINITION. Sys2Proof/Machine/Flags.lean: every flag the spec defines. The error flags of ERR (10_state.md R28,
60_exceptions.md R331), the decode of a motor's status word (44_staging_and_results.md R295 to R297), and the
computed views STATUS, HEAD, HEAD_TICKS, HEAD_TIMEOUT and FLAGS (10_state.md R32 to R34, R39).
-/

namespace Sys2Proof.Machine

open Sys2Proof

/-- The errors that set a flag (60_exceptions.md R331). -/
inductive ErrFlag where
  | badCmd
  | invAddr
  | qFull
  | crcErr
  | timeout
  | badLen
  | badCfg
  | rovf
  | badReg
  | cancelMiss
  deriving DecidableEq, Repr

/-- An error's code is its ERR bit number (60_exceptions.md R331). -/
def ErrFlag.code : ErrFlag → Nat
  | .badCmd     => 0
  | .invAddr    => 1
  | .qFull      => 2
  | .crcErr     => 3
  | .timeout    => 4
  | .badLen     => 5
  | .badCfg     => 6
  | .rovf       => 7
  | .badReg     => 8
  | .cancelMiss => 9

/-- The flag as a mask of ERR. -/
def ErrFlag.mask (e : ErrFlag) : BitVec 10 := 1#10 <<< e.code

/-- A bit as a 32-bit word at position `n`. -/
def bitAt (b : Bool) (n : Nat) : Word := (BitVec.ofBool b).setWidth 32 <<< n

/-- `torque_limited(s)`: bit 15 (44_staging_and_results.md R295; the masks are UNVERIFIED, log entry 15). -/
def torqueLimited (s : Word) : Bool := (s &&& 0x00008000#32) != 0#32

/-- `moving(s)`: bit 13 (R295). -/
def moving (s : Word) : Bool := (s &&& 0x00002000#32) != 0#32

/-- `busy(s)`: bit 8 (R295). -/
def busy (s : Word) : Bool := (s &&& 0x00000100#32) != 0#32

/-- `alarm(s)`: bit 7 (R295). -/
def alarm (s : Word) : Bool := (s &&& 0x00000080#32) != 0#32

/-- `ready(s)`: bit 5 (R295). -/
def readyBit (s : Word) : Bool := (s &&& 0x00000020#32) != 0#32

/-- `is_ready` of a status word (44_staging_and_results.md R296). -/
def isReadyWord (s : Word) : Bool :=
  !torqueLimited s && !moving s && !busy s && !alarm s && readyBit s

/-- Whether motor id `m` has registers: `1 <= m <= N_MOTORS` (10_state.md R46, R47). -/
abbrev State.HasMotor (s : State) (m : Nat) : Prop := 1 ≤ m ∧ m ≤ s.params.nMotors

/-- The result registers of motor `m`; all 0 where there is none (10_state.md R37, R38). -/
def State.result (s : State) (m : Nat) : MotorResult :=
  if s.HasMotor m then s.results.getD (m - 1) MotorResult.reset else MotorResult.reset

/-- `is_ready(m)` (44_staging_and_results.md R296). -/
def State.isReady (s : State) (m : Nat) : Bool := isReadyWord (s.result m).stat

/-- `is_ready(broadcast)`: every motor 1..N_MOTORS is ready (44_staging_and_results.md R297). -/
def State.isReadyAll (s : State) : Bool :=
  (List.range s.params.nMotors).all fun j => s.isReady (j + 1)

/-- `FLAGS[m]` (10_state.md R39). -/
def State.flagsView (s : State) (m : Nat) : Word :=
  if m = 0 then bitAt s.isReadyAll 13
  else if m ≤ s.params.nMotors then
    let r := s.result m
    bitAt r.svalid 0 ||| bitAt r.pvalid 1 ||| bitAt (torqueLimited r.stat) 8 ||| bitAt (moving r.stat) 9
      ||| bitAt (busy r.stat) 10 ||| bitAt (alarm r.stat) 11 ||| bitAt (readyBit r.stat) 12
      ||| bitAt (s.isReady m) 13
  else 0#32

/-- `pending_work` (43_scheduler.md R235). -/
def State.pendingWork (s : State) : Bool := !s.pendingWrites.isEmpty || !s.pendingReads.isEmpty

/-- The parser state codes of STATUS (10_state.md R32). -/
def ParserState.code : ParserState → Nat
  | .address  => 0
  | .function => 1
  | .size     => 2
  | .data     => 3
  | .crc      => 4

/-- `STATUS`, computed when it is read (10_state.md R32). -/
def State.statusView (s : State) : Word :=
  bitAt s.env.isOpen 0 ||| bitAt s.pendingWork 1 ||| (BitVec.ofNat 32 s.parser.state.code <<< 4)
    ||| ((BitVec.ofNat 8 s.pendingWrites.length).setWidth 32 <<< 8)
    ||| ((BitVec.ofNat 8 s.pendingReads.length).setWidth 32 <<< 16)
    ||| (s.parser.idx.setWidth 32 <<< 24)

/-- `HEAD` (10_state.md R33): 0 Status and 1 Position in bit 8, 0 Created and 1 AwaitingResponse in bit 9. -/
def State.headView (s : State) : Word :=
  match s.pendingReads with
  | [] => 0#32
  | h :: _ =>
    h.motorId.setWidth 32 ||| bitAt (h.kind == .position) 8 ||| bitAt (h.state == .awaitingResponse) 9
      ||| bitAt true 31

/-- `HEAD_TICKS` (10_state.md R34). -/
def State.headTicksView (s : State) : Word :=
  match s.pendingReads with
  | [] => 0#32
  | h :: _ => h.ticksWaited

/-- `HEAD_TIMEOUT` (10_state.md R34). -/
def State.headTimeoutView (s : State) : Word :=
  match s.pendingReads with
  | [] => 0#32
  | h :: _ => h.timeoutTicks

end Sys2Proof.Machine
end

