-- ==== Sys2Proof/Machine/Operands.lean ====
section
/-!
DEFINITION. Sys2Proof/Machine/Operands.lean: operand assembly (30_encoding.md R94, R95). Operands are ARG
registers taken whole, but for CRC.FEED's byte, and the ID field, which is never signed.
-/

namespace Sys2Proof.Machine

open Sys2Proof

/-- An ARG register whole, with no extension, scaling or shift (30_encoding.md R95). -/
def ArgRegs.get (a : ArgRegs) : Fin 6 → Word
  | 0 => a.arg0
  | 1 => a.arg1
  | 2 => a.arg2
  | 3 => a.arg3
  | 4 => a.arg4
  | 5 => a.arg5

/-- One ARG register replaced by a host write (10_state.md R26). -/
def ArgRegs.set (a : ArgRegs) (k : Fin 6) (v : Word) : ArgRegs :=
  match k with
  | 0 => { a with arg0 := v }
  | 1 => { a with arg1 := v }
  | 2 => { a with arg2 := v }
  | 3 => { a with arg3 := v }
  | 4 => { a with arg4 := v }
  | 5 => { a with arg5 := v }

/-- ARG register `k` of the state. -/
def State.arg (s : State) (k : Fin 6) : Word := s.args.get k

/-- CRC.FEED's operand `ARG0[7:0]` (30_encoding.md R95, 40_crc.md R133). -/
def State.feedByte (s : State) : Byte := (s.arg 0).extractLsb' 0 8

/-- CANCEL's operand: `ARG0` as an unsigned index (30_encoding.md R95). -/
def State.cancelIndex (s : State) : Nat := (s.arg 0).toNat

/-- UPDATE's operand: `ARG0` as the unsigned time `now` (30_encoding.md R95). -/
def State.now (s : State) : Word := s.arg 0

/-- DD's operands in the field order of 41_frame_codec.md R162. -/
def State.ddValues (s : State) : List Word := [s.arg 0, s.arg 1, s.arg 2, s.arg 3, s.arg 4, s.arg 5]

end Sys2Proof.Machine
end

