-- ==== Sys2Proof/Machine/Ops.lean ====
section
/-!
DEFINITION. Sys2Proof/Machine/Ops.lean: the named operations on the state. First the error mechanism, the one
"exception" of this hardware (60_exceptions.md R330), and the clearing of flags beside it (R347); then one
update per register, the queues, the Register Buffer, the result registers and the transport.
-/

namespace Sys2Proof.Machine

open Sys2Proof

/-! ## Errors -/

/-- `raise E`: sets the sticky flag and does nothing else; the block has no trap, no handler and no saved
state (60_exceptions.md R330, R346). -/
def State.raise (s : State) (e : ErrFlag) : State := { s with err := s.err ||| e.mask }

/-- The host's W1C write to ERR: `ERR <- ERR AND NOT v[9:0]` (10_state.md R29). There is no return
instruction; this is how an error ends (60_exceptions.md R347). -/
def State.clearErr (s : State) (v : Word) : State := { s with err := s.err &&& ~~~(v.extractLsb' 0 10) }

/-! ## Registers -/

/-- `CMD <- w` (30_encoding.md R91). -/
def State.setCmd (s : State) (w : Word) : State := { s with cmd := w }

/-- `ARG<k> <- v` (10_state.md R26). -/
def State.setArg (s : State) (k : Fin 6) (v : Word) : State := { s with args := s.args.set k v }

/-- `CRC_REG <- c` (10_state.md R27). -/
def State.setCrcReg (s : State) (c : Half) : State := { s with crcReg := c }

/-- `CFG_INTERVAL <- v` (10_state.md R30). -/
def State.setInterval (s : State) (v : Word) : State := { s with cfgInterval := v }

/-- `CFG_TIMEOUT <- v` (10_state.md R31). -/
def State.setTimeout (s : State) (v : Word) : State := { s with cfgTimeout := v }

/-- `TIME_REF <- t` (10_state.md R48). -/
def State.setTimeRef (s : State) (t : Word) : State := { s with timeRef := t }

/-- `CNT_CRC_ERR + 1`, modulo 2^32 like every counter (10_state.md R36). -/
def State.countCrcErr (s : State) : State := { s with cntCrcErr := s.cntCrcErr + 1 }

/-- `CNT_TIMEOUT + 1`. -/
def State.countTimeout (s : State) : State := { s with cntTimeout := s.cntTimeout + 1 }

/-- `CNT_UNSOL + 1`. -/
def State.countUnsol (s : State) : State := { s with cntUnsol := s.cntUnsol + 1 }

/-- `CNT_RESOLVED + 1`. -/
def State.countResolved (s : State) : State := { s with cntResolved := s.cntResolved + 1 }

/-- `CNT_TX + 1`. -/
def State.countTx (s : State) : State := { s with cntTx := s.cntTx + 1 }

/-- `CNT_TICK + 1`. -/
def State.countTick (s : State) : State := { s with cntTick := s.cntTick + 1 }

/-- Replace `pending_writes`. -/
def State.setWrites (s : State) (q : List (List Byte)) : State := { s with pendingWrites := q }

/-- Replace `pending_reads`. -/
def State.setReads (s : State) (q : List PendingRequest) : State := { s with pendingReads := q }

/-- Replace the parser's registers. -/
def State.setParser (s : State) (p : Parser) : State := { s with parser := p }

/-- Replace the ready queue. -/
def State.setReady (s : State) (q : List Response) : State := { s with ready := q }

/-- Replace the Register Buffer. -/
def State.setRb (s : State) (rb : RegisterBuffer) : State := { s with rb := rb }

/-- Replace the result registers. -/
def State.setResults (s : State) (r : List MotorResult) : State := { s with results := r }

/-! ## The transport and the model's surroundings -/

/-- `Transmit(bytes)`: one whole frame is appended to the transmit stream (20_memory.md R77, 10_state.md
R50). -/
def State.transmit (s : State) (bytes : List Byte) : State :=
  { s with env := { s.env with tx := s.env.tx ++ [bytes] } }

/-- After `RxDrain()` the transport holds no byte (20_memory.md R78). -/
def State.clearRx (s : State) : State := { s with env := { s.env with rx := [] } }

/-- Bytes arrive on the receive line and wait in the transport (20_memory.md R76, R78). -/
def State.receive (s : State) (bytes : List Byte) : State :=
  { s with env := { s.env with rx := s.env.rx ++ bytes } }

/-- The transport opens or closes (10_state.md R49). -/
def State.setOpen (s : State) (b : Bool) : State := { s with env := { s.env with isOpen := b } }

/-- A value returned to the host (10_state.md R23). -/
def State.logRead (s : State) (v : Word) : State :=
  { s with env := { s.env with reads := s.env.reads ++ [v] } }

/-- Replace the actions to come. -/
def State.setAgenda (s : State) (a : List Event) : State := { s with env := { s.env with agenda := a } }

/-- Reset of the running block (70_reset_and_hazards.md R370, R371): every item of state takes its reset
value, nothing is transmitted or drained, and the transport stays as it is. The parameters never change
(R372). -/
def State.resetBlock (s : State) : State := State.resetWith s.params s.env

/-! ## Queues -/

/-- `EnqueueWrite(body)` (43_scheduler.md R233). -/
def State.enqueueWrite (s : State) (body : List Byte) : State :=
  if s.pendingWrites.length = s.params.wqDepth then s.raise .qFull
  else s.setWrites (s.pendingWrites ++ [body])

/-- ISSUE_READ: the checks and the push (43_scheduler.md R230; check order 60_exceptions.md R343). -/
def State.issueRead (s : State) (kind : RegKind) (m : Byte) : State :=
  if ¬ s.HasMotor m.toNat then s.raise .invAddr
  else if s.pendingReads.length = s.params.rqDepth then s.raise .qFull
  else
    s.setReads (s.pendingReads ++
      [{ motorId := m, kind := kind, state := .created, ticksWaited := 0#32, timeoutTicks := s.cfgTimeout }])

/-- CANCEL_WRITE of index `i` (43_scheduler.md R234); the other entries keep their order. -/
def State.cancelWrite (s : State) (i : Nat) : State :=
  if s.pendingWrites.length ≤ i then s.raise .cancelMiss
  else s.setWrites (s.pendingWrites.eraseIdx i)

/-- `ReadyPush(r)` (42_parser.md R207): a full queue drops the new frame. -/
def State.readyPush (s : State) (r : Response) : State :=
  if s.ready.length < s.params.readyDepth then s.setReady (s.ready ++ [r])
  else s.raise .rovf

/-! ## The Register Buffer -/

/-- The values of one kind (10_state.md R46). -/
def RegisterBuffer.bank (rb : RegisterBuffer) : RbKind → List Word
  | .pos  => rb.pos
  | .vel  => rb.vel
  | .mode => rb.mode
  | .acc  => rb.acc
  | .dec  => rb.dec
  | .cur  => rb.cur

/-- Replace the values of one kind. -/
def RegisterBuffer.setBank (rb : RegisterBuffer) (k : RbKind) (l : List Word) : RegisterBuffer :=
  match k with
  | .pos  => { rb with pos := l }
  | .vel  => { rb with vel := l }
  | .mode => { rb with mode := l }
  | .acc  => { rb with acc := l }
  | .dec  => { rb with dec := l }
  | .cur  => { rb with cur := l }

/-- `RB[k][m]` as the host reads it: 0 for slot 0 and above N_MOTORS (10_state.md R40). -/
def State.rbValue (s : State) (k : RbKind) (m : Nat) : Word :=
  if s.HasMotor m then (s.rb.bank k).getD (m - 1) 0#32 else 0#32

/-- STAGE (44_staging_and_results.md R290): slot 0 stands for every slot 1..N_MOTORS, a slot above N_MOTORS
raises INVADDR, and slot 0 itself is never written. -/
def State.stage (s : State) (k : RbKind) (m : Nat) (v : Word) : State :=
  if m = 0 then s.setRb (s.rb.setBank k (List.replicate s.params.nMotors v))
  else if m ≤ s.params.nMotors then s.setRb (s.rb.setBank k ((s.rb.bank k).set (m - 1) v))
  else s.raise .invAddr

/-- The values a BATCH_WRITE carries: `[RB[k][1], ..., RB[k][N_MOTORS]]`, copied now (41_frame_codec.md
R163). -/
def State.batchValues (s : State) (k : RbKind) : List Word :=
  (List.range s.params.nMotors).map fun j => s.rbValue k (j + 1)

/-! ## Result registers -/

/-- Change the result registers of motor `m`, if it has any. -/
def State.modifyResult (s : State) (m : Nat) (f : MotorResult → MotorResult) : State :=
  if s.HasMotor m then s.setResults (s.results.modify (m - 1) f) else s

/-- `ApplyPosition(m, v)` (44_staging_and_results.md R293). -/
def State.applyPosition (s : State) (m : Nat) (v : Word) : State :=
  s.modifyResult m fun r => { r with pos := v, pvalid := true }

/-- `ApplyStatus(m, v)` (44_staging_and_results.md R294). -/
def State.applyStatus (s : State) (m : Nat) (v : Word) : State :=
  s.modifyResult m fun r => { r with stat := v, svalid := true }

/-- `Apply(m, kind, v)` (43_scheduler.md R257). -/
def State.applyValue (s : State) (m : Nat) (kind : RegKind) (v : Word) : State :=
  match kind with
  | .status => s.applyStatus m v
  | .position => s.applyPosition m v

end Sys2Proof.Machine
end

