-- ==== Sys2Proof/Machine/CrcUnit.lean ====
section
/-!
DEFINITION. Sys2Proof/Machine/CrcUnit.lean: the host-visible CRC generator, CRC.INIT and CRC.FEED (40_crc.md
R132, R133). It never touches the parser's accumulator (10_state.md R27).
-/

namespace Sys2Proof.Machine

open Sys2Proof

/-- CRC.INIT (40_crc.md R132). -/
def execCrcInit (s : State) : Host.Outcome State Fault Refusal := .next (s.setCrcReg crcInit)

/-- CRC.FEED (40_crc.md R133). -/
def execCrcFeed (s : State) : Host.Outcome State Fault Refusal :=
  .next (s.setCrcReg (crcStep s.crcReg s.feedByte))

end Sys2Proof.Machine
end

