-- ==== Sys2Proof/Machine/Reads.lean ====
section
/-!
DEFINITION. Sys2Proof/Machine/Reads.lean: ISSUE_READ, that is READ.STATUS and READ.POSITION (43_scheduler.md
R230).
-/

namespace Sys2Proof.Machine

open Sys2Proof

/-- READ.STATUS (43_scheduler.md R230, SEL 0). -/
def execReadStatus (id : Byte) (s : State) : Host.Outcome State Fault Refusal :=
  .next (s.issueRead .status id)

/-- READ.POSITION (43_scheduler.md R230, SEL 1). -/
def execReadPosition (id : Byte) (s : State) : Host.Outcome State Fault Refusal :=
  .next (s.issueRead .position id)

end Sys2Proof.Machine
end

