-- ==== Sys2Proof/Machine/RemoteIo.lean ====
section
/-!
DEFINITION. Sys2Proof/Machine/RemoteIo.lean: the eight remote-IO commands (41_frame_codec.md R157). Each writes
its own mask; masks are not ORed together and nothing accumulates.
-/

namespace Sys2Proof.Machine

open Sys2Proof

/-- Enqueue a one-value write of a mask at `ADDR_RIO` (41_frame_codec.md R157). -/
def State.enqueueRio (s : State) (id : Byte) (mask : Word) : State :=
  s.enqueueWrite (bodyWrite id s.params.addrRio [mask])

/-- RIO.START (41_frame_codec.md R157, SEL 0). -/
def execRioStart (id : Byte) (s : State) : Host.Outcome State Fault Refusal :=
  .next (s.enqueueRio id s.params.rioMask.start)

/-- RIO.HOME (41_frame_codec.md R157, SEL 1). -/
def execRioHome (id : Byte) (s : State) : Host.Outcome State Fault Refusal :=
  .next (s.enqueueRio id s.params.rioMask.home)

/-- RIO.STOP (41_frame_codec.md R157, SEL 2). -/
def execRioStop (id : Byte) (s : State) : Host.Outcome State Fault Refusal :=
  .next (s.enqueueRio id s.params.rioMask.stop)

/-- RIO.FREE (41_frame_codec.md R157, SEL 3). -/
def execRioFree (id : Byte) (s : State) : Host.Outcome State Fault Refusal :=
  .next (s.enqueueRio id s.params.rioMask.free)

/-- RIO.RESET (41_frame_codec.md R157, SEL 4). -/
def execRioReset (id : Byte) (s : State) : Host.Outcome State Fault Refusal :=
  .next (s.enqueueRio id s.params.rioMask.reset)

/-- RIO.JOG_FWD (41_frame_codec.md R157, SEL 5). -/
def execRioJogFwd (id : Byte) (s : State) : Host.Outcome State Fault Refusal :=
  .next (s.enqueueRio id s.params.rioMask.jogFwd)

/-- RIO.JOG_BWD (41_frame_codec.md R157, SEL 6). -/
def execRioJogBwd (id : Byte) (s : State) : Host.Outcome State Fault Refusal :=
  .next (s.enqueueRio id s.params.rioMask.jogBwd)

/-- RIO.CLEAR (41_frame_codec.md R157, SEL 7). -/
def execRioClear (id : Byte) (s : State) : Host.Outcome State Fault Refusal :=
  .next (s.enqueueRio id s.params.rioMask.clear)

end Sys2Proof.Machine
end

