-- ==== Sys2Proof/Machine/ParserOps.lean ====
section
/-!
DEFINITION. Sys2Proof/Machine/ParserOps.lean: the frame parser, one definition per state of 42_parser.md R201
to R206. It checks no station id and no function byte, knows no time and never goes back (R200, R208, R209).
-/

namespace Sys2Proof.Machine

open Sys2Proof

/-- State ADDRESS: any byte is a station id (42_parser.md R201). -/
def Parser.stepAddress (p : Parser) (b : Byte) : Parser :=
  { p with acc := crcStep crcInit b, station := b, state := .function }

/-- State FUNCTION: the byte is not checked (42_parser.md R202). -/
def Parser.stepFunction (p : Parser) (b : Byte) : Parser :=
  { p with acc := crcStep p.acc b, func := b, state := .size }

/-- State SIZE: a size of 0 skips DATA (42_parser.md R203). -/
def Parser.stepSize (p : Parser) (b : Byte) : Parser :=
  { p with acc := crcStep p.acc b, size := b, idx := 0#8, state := if b = 0#8 then .crc else .data }

/-- State DATA (42_parser.md R204). `P_IDX` never exceeds `P_SIZE` in a run; at the index 255, which no run
reaches, there is no byte to store to (log entry 7). -/
def Parser.stepData (p : Parser) (b : Byte) : Parser :=
  let next := p.idx + 1#8
  { p with
    acc   := crcStep p.acc b
    data  := p.data.set p.idx.toNat b
    idx   := if next = p.size then 0#8 else next
    state := if next = p.size then .crc else .data }

/-- State CRC, first byte; the running CRC is not advanced (42_parser.md R205). -/
def Parser.stepCrcLo (p : Parser) (b : Byte) : Parser :=
  { p with crcLo := b, idx := 1#8 }

/-- State CRC, second byte: the parser itself goes back to ADDRESS (42_parser.md R206). -/
def Parser.stepCrcHi (p : Parser) : Parser :=
  { p with idx := 0#8, state := .address }

/-- The received CRC once the byte `b` completes the trailer (42_parser.md R206). -/
def Parser.rxCrc (p : Parser) (b : Byte) : Half := trailerCrc p.crcLo b

/-- The Response of a completed frame (42_parser.md R206): `data = P_DATA[0 .. P_SIZE-1]`. -/
def Parser.response (p : Parser) (b : Byte) : Response where
  stationId := p.station
  function  := p.func
  byteCount := p.size
  data      := p.data.take p.size.toNat
  crc16     := p.rxCrc b

/-- The end of a frame: accept it if the two CRCs are equal, else CRCERR; either way back to ADDRESS
(42_parser.md R206, R207; 60_exceptions.md R335). -/
def State.finishFrame (s : State) (b : Byte) : State :=
  let s' :=
    if s.parser.rxCrc b = s.parser.acc then s.readyPush (s.parser.response b)
    else (s.raise .crcErr).countCrcErr
  s'.setParser s.parser.stepCrcHi

/-- `ParserStep(b)` (42_parser.md R200). In CRC, `P_IDX = 0` is the first trailer byte and any other value the
second; a run has only 0 and 1 (log entry 7). -/
def State.parserStep (s : State) (b : Byte) : State :=
  match s.parser.state with
  | .address  => s.setParser (s.parser.stepAddress b)
  | .function => s.setParser (s.parser.stepFunction b)
  | .size     => s.setParser (s.parser.stepSize b)
  | .data     => s.setParser (s.parser.stepData b)
  | .crc      => if s.parser.idx = 0#8 then s.setParser (s.parser.stepCrcLo b) else s.finishFrame b

/-- Bytes go through the parser in order (43_scheduler.md R255). -/
def State.feed (s : State) (bs : List Byte) : State := bs.foldl State.parserStep s

end Sys2Proof.Machine
end

