-- ==== Sys2Proof/Machine/Scheduler.lean ====
section
/-!
DEFINITION. Sys2Proof/Machine/Scheduler.lean: the scheduler tick (43_scheduler.md R250 to R257), the interval
ticker (R260, R261), and the meanings of TICK (R258) and UPDATE (R262).
-/

namespace Sys2Proof.Machine

open Sys2Proof

/-- `ADDR(kind)` (41_frame_codec.md R166). -/
def readAddr (p : Params) : RegKind → Half
  | .status   => p.addrStatus
  | .position => p.addrPosition

/-- `decode32(r)` (41_frame_codec.md R153): `none` is the spec's NONE. -/
def decode32 (r : Response) : Option Word :=
  if r.byteCount = 4#8 then
    some (word32 (r.data.getD 0 0#8) (r.data.getD 1 0#8) (r.data.getD 2 0#8) (r.data.getD 3 0#8))
  else none

/-- Step 2: the head read `h` is sent and awaits its response; its wait count is not changed
(43_scheduler.md R252). -/
def State.sendRead (s : State) (h : PendingRequest) (rest : List PendingRequest) : State :=
  ((s.transmit (buildRead h.motorId (readAddr s.params h.kind))).countTx).setReads
    ({ h with state := .awaitingResponse } :: rest)

/-- Step 3: `timeout(h)` counts this tick; at the threshold the head is dropped, with TIMEOUT
(43_scheduler.md R231, R253). -/
def State.awaitRead (s : State) (h : PendingRequest) (rest : List PendingRequest) : State :=
  let waited := h.ticksWaited + 1#32
  if h.timeoutTicks ≤ waited then ((s.setReads rest).raise .timeout).countTimeout
  else s.setReads ({ h with ticksWaited := waited } :: rest)

/-- Step 4: the head body leaves with its CRC (43_scheduler.md R254, 41_frame_codec.md R154). -/
def State.sendWrite (s : State) (body : List Byte) (rest : List (List Byte)) : State :=
  ((s.setWrites rest).transmit (withTrailer body)).countTx

/-- Steps 2 to 4: at most one of them, and step 4 only when no read is queued (43_scheduler.md R250; 90_conflicts.md
C3). -/
def State.lineStep (s : State) : State :=
  match s.pendingReads with
  | h :: rest =>
    match h.state with
    | .created => s.sendRead h rest
    | .awaitingResponse => s.awaitRead h rest
  | [] =>
    match s.pendingWrites with
    | body :: rest => s.sendWrite body rest
    | [] => s

/-- `Correlate(r)` (43_scheduler.md R256): any Response resolves the head, whatever it holds. -/
def State.correlate (s : State) (r : Response) : State :=
  match s.pendingReads with
  | [] => s.countUnsol
  | h :: rest =>
    let s := s.setReads rest
    (match decode32 r with
      | none => s.raise .badLen
      | some v => s.applyValue h.motorId.toNat h.kind v).countResolved

/-- Empty the ready queue through `Correlate`, in FIFO order (43_scheduler.md R255, 42_parser.md R211). The
list is the queue's contents. -/
def State.drainReady (s : State) : List Response → State
  | [] => s.setReady []
  | r :: rs => ((s.setReady rs).correlate r).drainReady rs

/-- Step 5: `RxDrain`, the parser on every byte, then `Correlate` on every Response (43_scheduler.md R255). -/
def State.receiveStep (s : State) : State :=
  let fed := (s.clearRx).feed s.env.rx
  fed.drainReady fed.ready

/-- `Tick()` (43_scheduler.md R250). A closed transport makes it a no-op (R251). -/
def State.tick (s : State) : State :=
  if s.env.isOpen then s.countTick.lineStep.receiveStep else s

/-- `(now - TIME_REF) mod 2^32` (43_scheduler.md R261). -/
def State.elapsed (s : State) (now : Word) : Word := now - s.timeRef

/-- Whether `TickerFire(now)` fires (43_scheduler.md R261). -/
abbrev State.fires (s : State) (now : Word) : Prop := s.cfgInterval ≤ s.elapsed now

/-- The reference point after a fire: forward by the whole intervals that passed (43_scheduler.md R261). -/
def State.caughtUp (s : State) (now : Word) : Word :=
  s.timeRef + s.elapsed now / s.cfgInterval * s.cfgInterval

/-- UPDATE's effect: the ticker, and a tick if it fires (43_scheduler.md R262). -/
def State.updateAt (s : State) (now : Word) : State :=
  if s.fires now then (s.setTimeRef (s.caughtUp now)).tick else s

/-- TICK (43_scheduler.md R258). -/
def execTick (s : State) : Host.Outcome State Fault Refusal := .next s.tick

/-- UPDATE (43_scheduler.md R262). -/
def execUpdate (s : State) : Host.Outcome State Fault Refusal := .next (s.updateAt s.now)

end Sys2Proof.Machine
end

