-- ==== Sys2Proof/Machine/Staging.lean ====
section
/-!
DEFINITION. Sys2Proof/Machine/Staging.lean: the six STAGE commands (44_staging_and_results.md R290). The staged
current is held and readable, and no command sends it (R291).
-/

namespace Sys2Proof.Machine

open Sys2Proof

/-- STAGE.POS (44_staging_and_results.md R290, SEL 0). -/
def execStagePos (id : Byte) (s : State) : Host.Outcome State Fault Refusal :=
  .next (s.stage .pos id.toNat (s.arg 0))

/-- STAGE.VEL (44_staging_and_results.md R290, SEL 1). -/
def execStageVel (id : Byte) (s : State) : Host.Outcome State Fault Refusal :=
  .next (s.stage .vel id.toNat (s.arg 0))

/-- STAGE.MODE (44_staging_and_results.md R290, SEL 2). -/
def execStageMode (id : Byte) (s : State) : Host.Outcome State Fault Refusal :=
  .next (s.stage .mode id.toNat (s.arg 0))

/-- STAGE.ACC (44_staging_and_results.md R290, SEL 3). -/
def execStageAcc (id : Byte) (s : State) : Host.Outcome State Fault Refusal :=
  .next (s.stage .acc id.toNat (s.arg 0))

/-- STAGE.DEC (44_staging_and_results.md R290, SEL 4). -/
def execStageDec (id : Byte) (s : State) : Host.Outcome State Fault Refusal :=
  .next (s.stage .dec id.toNat (s.arg 0))

/-- STAGE.CUR (44_staging_and_results.md R290, SEL 5). -/
def execStageCur (id : Byte) (s : State) : Host.Outcome State Fault Refusal :=
  .next (s.stage .cur id.toNat (s.arg 0))

end Sys2Proof.Machine
end

