-- ==== Sys2Proof/Machine/Wire.lean ====
section
/-!
DEFINITION. Sys2Proof/Machine/Wire.lean: the wire frames of the opcode table as instructions. A frame reaches
the block only as bytes on its receive line (20_memory.md R76, R78): they wait in the transport until an open
tick drains them, and the parser then takes any frame by the read-response shape, whatever its function byte
(30_encoding.md R106, R108; 42_parser.md R209, R210; 70_reset_and_hazards.md R376). The frames the block itself
sends are built in the same form by the ticks (43_scheduler.md R252, R254). DESIGN CHOICE: log entry 5.
-/

namespace Sys2Proof.Machine

open Sys2Proof

/-- WIRE.READ_REQ: the 8 bytes of 30_encoding.md R101 arrive. -/
def execWireReadReq (st : Byte) (addr crc : Half) (s : State) : Host.Outcome State Fault Refusal :=
  .next (s.receive (bodyRead st addr ++ trailer crc))

/-- WIRE.READ_RESP: the 9 bytes of 30_encoding.md R102 arrive. -/
def execWireReadResp (st fn : Byte) (v : Word) (crc : Half) (s : State) : Host.Outcome State Fault Refusal :=
  .next (s.receive (bodyResponse st fn v ++ trailer crc))

/-- WIRE.WRITE_1: the 13 bytes of 30_encoding.md R103 with one value arrive. -/
def execWireWrite1 (st : Byte) (addr : Half) (v : Word) (crc : Half) (s : State) :
    Host.Outcome State Fault Refusal :=
  .next (s.receive (bodyWrite st addr [v] ++ trailer crc))

/-- WIRE.WRITE_DD: the 33 bytes of 41_frame_codec.md R162 arrive. -/
def execWireWriteDd (st : Byte) (addr : Half) (position velocity accel decel current trigger : Word)
    (crc : Half) (s : State) : Host.Outcome State Fault Refusal :=
  .next (s.receive (bodyWrite st addr [position, velocity, accel, decel, current, trigger] ++ trailer crc))

/-- WIRE.WRITE_BATCH: the 9 + 4n bytes of 41_frame_codec.md R163 arrive. -/
def execWireWriteBatch (addr : Half) (vals : List Word) (crc : Half) (s : State) :
    Host.Outcome State Fault Refusal :=
  .next (s.receive (bodyWrite 0x00#8 addr vals ++ trailer crc))

end Sys2Proof.Machine
end

