-- ==== Sys2Proof/Machine/Writes.lean ====
section
/-!
DEFINITION. Sys2Proof/Machine/Writes.lean: the single-value writes NETSEL, JOGSTEPS, JOGSPEED, ORIGIN
(41_frame_codec.md R158 to R161), DD (R162), the batch writes (R163) and CANCEL (43_scheduler.md R234).
-/

namespace Sys2Proof.Machine

open Sys2Proof

/-- Enqueue a write of the whole of `ARG0` (41_frame_codec.md R158 to R161). -/
def State.enqueueArg0 (s : State) (id : Byte) (addr : Half) : State :=
  s.enqueueWrite (bodyWrite id addr [s.arg 0])

/-- Enqueue a batch write: the values are copied now, the frame goes to station 0 (41_frame_codec.md R163,
20_memory.md R85). -/
def State.enqueueBatch (s : State) (addr : Half) (k : RbKind) : State :=
  s.enqueueWrite (bodyWrite 0x00#8 addr (s.batchValues k))

/-- NETSEL (41_frame_codec.md R158); the slot number is not checked. -/
def execNetsel (id : Byte) (s : State) : Host.Outcome State Fault Refusal :=
  .next (s.enqueueArg0 id s.params.addrNetsel)

/-- JOGSTEPS (41_frame_codec.md R159). -/
def execJogsteps (id : Byte) (s : State) : Host.Outcome State Fault Refusal :=
  .next (s.enqueueArg0 id s.params.addrJogsteps)

/-- JOGSPEED (41_frame_codec.md R160). -/
def execJogspeed (id : Byte) (s : State) : Host.Outcome State Fault Refusal :=
  .next (s.enqueueArg0 id s.params.addrJogspeed)

/-- ORIGIN (41_frame_codec.md R161). -/
def execOrigin (id : Byte) (s : State) : Host.Outcome State Fault Refusal :=
  .next (s.enqueueArg0 id s.params.addrOrigin)

/-- DD: six values, in the field order of 41_frame_codec.md R162. -/
def execDd (id : Byte) (s : State) : Host.Outcome State Fault Refusal :=
  .next (s.enqueueWrite (bodyWrite id s.params.addrDd s.ddValues))

/-- BATCH.POS (41_frame_codec.md R163, SEL 0). -/
def execBatchPos (s : State) : Host.Outcome State Fault Refusal :=
  .next (s.enqueueBatch s.params.addrBatch.pos .pos)

/-- BATCH.VEL (41_frame_codec.md R163, SEL 1). -/
def execBatchVel (s : State) : Host.Outcome State Fault Refusal :=
  .next (s.enqueueBatch s.params.addrBatch.vel .vel)

/-- BATCH.MODE (41_frame_codec.md R163, SEL 2). -/
def execBatchMode (s : State) : Host.Outcome State Fault Refusal :=
  .next (s.enqueueBatch s.params.addrBatch.mode .mode)

/-- BATCH.ACC (41_frame_codec.md R163, SEL 3). -/
def execBatchAcc (s : State) : Host.Outcome State Fault Refusal :=
  .next (s.enqueueBatch s.params.addrBatch.acc .acc)

/-- BATCH.DEC (41_frame_codec.md R163, SEL 4). -/
def execBatchDec (s : State) : Host.Outcome State Fault Refusal :=
  .next (s.enqueueBatch s.params.addrBatch.dec .dec)

/-- CANCEL (43_scheduler.md R234). -/
def execCancel (s : State) : Host.Outcome State Fault Refusal :=
  .next (s.cancelWrite s.cancelIndex)

end Sys2Proof.Machine
end

