-- ==== Sys2Proof/Machine/Dispatch.lean ====
section
/-!
DEFINITION. Sys2Proof/Machine/Dispatch.lean: exec, one arm per constructor of Instr.
-/

namespace Sys2Proof.Machine

open Sys2Proof

def exec (i : Instr) (s : State) : Host.Outcome State Fault Refusal :=
  match i with
  | .crcInit => Sys2Proof.Machine.execCrcInit s
  | .crcFeed => Sys2Proof.Machine.execCrcFeed s
  | .readStatus id => Sys2Proof.Machine.execReadStatus id s
  | .readPosition id => Sys2Proof.Machine.execReadPosition id s
  | .rioStart id => Sys2Proof.Machine.execRioStart id s
  | .rioHome id => Sys2Proof.Machine.execRioHome id s
  | .rioStop id => Sys2Proof.Machine.execRioStop id s
  | .rioFree id => Sys2Proof.Machine.execRioFree id s
  | .rioReset id => Sys2Proof.Machine.execRioReset id s
  | .rioJogFwd id => Sys2Proof.Machine.execRioJogFwd id s
  | .rioJogBwd id => Sys2Proof.Machine.execRioJogBwd id s
  | .rioClear id => Sys2Proof.Machine.execRioClear id s
  | .netsel id => Sys2Proof.Machine.execNetsel id s
  | .jogsteps id => Sys2Proof.Machine.execJogsteps id s
  | .jogspeed id => Sys2Proof.Machine.execJogspeed id s
  | .origin id => Sys2Proof.Machine.execOrigin id s
  | .dd id => Sys2Proof.Machine.execDd id s
  | .batchPos => Sys2Proof.Machine.execBatchPos s
  | .batchVel => Sys2Proof.Machine.execBatchVel s
  | .batchMode => Sys2Proof.Machine.execBatchMode s
  | .batchAcc => Sys2Proof.Machine.execBatchAcc s
  | .batchDec => Sys2Proof.Machine.execBatchDec s
  | .cancel => Sys2Proof.Machine.execCancel s
  | .stagePos id => Sys2Proof.Machine.execStagePos id s
  | .stageVel id => Sys2Proof.Machine.execStageVel id s
  | .stageMode id => Sys2Proof.Machine.execStageMode id s
  | .stageAcc id => Sys2Proof.Machine.execStageAcc id s
  | .stageDec id => Sys2Proof.Machine.execStageDec id s
  | .stageCur id => Sys2Proof.Machine.execStageCur id s
  | .tick => Sys2Proof.Machine.execTick s
  | .update => Sys2Proof.Machine.execUpdate s
  | .wireReadReq st addr crc => Sys2Proof.Machine.execWireReadReq st addr crc s
  | .wireReadResp st fn v crc => Sys2Proof.Machine.execWireReadResp st fn v crc s
  | .wireWrite1 st addr v crc => Sys2Proof.Machine.execWireWrite1 st addr v crc s
  | .wireWriteDd st addr p v a d c t crc => Sys2Proof.Machine.execWireWriteDd st addr p v a d c t crc s
  | .wireWriteBatch addr vals crc => Sys2Proof.Machine.execWireWriteBatch addr vals crc s

end Sys2Proof.Machine
end

