-- ==== Sys2Proof/Machine/Window.lean ====
section
/-!
DEFINITION. Sys2Proof/Machine/Window.lean: the host register window (10_state.md R23 to R40), HostRead and
HostWrite, and what each action from outside does to the machine. Step.lean only calls these.
-/

namespace Sys2Proof.Machine

open Sys2Proof

/-- A register of the window, by its row of the map of 10_state.md R25. -/
inductive WindowReg where
  | cmd
  | arg (k : Fin 6)
  | headTimeout
  | crc
  | err
  | cfgInterval
  | cfgTimeout
  | status
  | head
  | headTicks
  | timeRef
  | cntCrcErr
  | cntTimeout
  | cntUnsol
  | cntResolved
  | cntTx
  | cntTick
  | pos (m : Nat)
  | stat (m : Nat)
  | flags (m : Nat)
  | rb (k : RbKind) (m : Nat)
  | reserved
  deriving DecidableEq, Repr

/-- The registers at 0x000..0x015, in order (10_state.md R25). -/
def lowRegs : List WindowReg :=
  [.cmd, .arg 0, .arg 1, .arg 2, .arg 3, .arg 4, .arg 5, .headTimeout, .crc, .err, .cfgInterval, .cfgTimeout,
   .status, .head, .headTicks, .timeRef, .cntCrcErr, .cntTimeout, .cntUnsol, .cntResolved, .cntTx, .cntTick]

/-- The kind of a Register Buffer bank: k = 0 POS, 1 VEL, 2 MODE, 3 ACC, 4 DEC, 5 CUR (10_state.md R40). -/
def RbKind.ofIndex : Nat → RbKind
  | 0 => .pos
  | 1 => .vel
  | 2 => .mode
  | 3 => .acc
  | 4 => .dec
  | _ => .cur

/-- The map of 10_state.md R25. Offsets are word offsets 0x000..0xFFF. -/
def WindowReg.ofOffset (off : BitVec 12) : WindowReg :=
  let o := off.toNat
  if o < 0x020 then lowRegs.getD o .reserved
  else if o < 0x060 then .pos (o - 0x020)
  else if o < 0x0A0 then .stat (o - 0x060)
  else if o < 0x0E0 then .flags (o - 0x0A0)
  else if o < 0x100 then .reserved
  else if o < 0x280 then .rb (RbKind.ofIndex ((o - 0x100) / 0x40)) ((o - 0x100) % 0x40)
  else .reserved

/-- The value of a register as the host sees it (10_state.md R25 to R40). -/
def State.view (s : State) : WindowReg → Word
  | .cmd         => s.cmd
  | .arg k       => s.arg k
  | .headTimeout => s.headTimeoutView
  | .crc         => s.crcReg.setWidth 32
  | .err         => s.err.setWidth 32
  | .cfgInterval => s.cfgInterval
  | .cfgTimeout  => s.cfgTimeout
  | .status      => s.statusView
  | .head        => s.headView
  | .headTicks   => s.headTicksView
  | .timeRef     => s.timeRef
  | .cntCrcErr   => s.cntCrcErr
  | .cntTimeout  => s.cntTimeout
  | .cntUnsol    => s.cntUnsol
  | .cntResolved => s.cntResolved
  | .cntTx       => s.cntTx
  | .cntTick     => s.cntTick
  | .pos m       => (s.result m).pos
  | .stat m      => (s.result m).stat
  | .flags m     => s.flagsView m
  | .rb k m      => s.rbValue k m
  | .reserved    => 0#32

/-- `HostRead(off)`: the value, with no side effect (10_state.md R23). -/
def State.hostRead (s : State) (off : BitVec 12) : Word := s.view (WindowReg.ofOffset off)

/-- A command word written to CMD (30_encoding.md R91): CMD takes it, then the command runs, or BADCMD is
raised and nothing else happens (R96). -/
def State.runCommand (s : State) (w : Word) : Host.Outcome State Fault Refusal :=
  match decode (.command w) with
  | .ok i => exec i (s.setCmd w)
  | .error _ => .next ((s.setCmd w).raise .badCmd)

/-- A write to CFG_INTERVAL: 0 is refused with BADCFG (10_state.md R30). -/
def State.writeInterval (s : State) (v : Word) : State :=
  if v = 0#32 then s.raise .badCfg else s.setInterval v

/-- `HostWrite(off, v)` by the access types of 10_state.md R23 and R25: CMD executes, ARG, CFG_INTERVAL and
CFG_TIMEOUT take the value, ERR is W1C, and every other offset raises BADREG. -/
def State.hostWrite (s : State) (off : BitVec 12) (v : Word) : Host.Outcome State Fault Refusal :=
  match WindowReg.ofOffset off with
  | .cmd         => s.runCommand v
  | .arg k       => .next (s.setArg k v)
  | .err         => .next (s.clearErr v)
  | .cfgInterval => .next (s.writeInterval v)
  | .cfgTimeout  => .next (s.setTimeout v)
  | _            => .next (s.raise .badReg)

/-- Bytes arrive on the line: a frame of the table is an instruction, anything else just waits in the
transport, for any byte sequence may arrive (20_memory.md R78). -/
def State.arrive (s : State) (bs : List Byte) : Host.Outcome State Fault Refusal :=
  match decode (.frame bs) with
  | .ok i => exec i s
  | .error _ => .next (s.receive bs)

/-- One action from outside, run to completion (20_memory.md R80). -/
def State.perform (s : State) : Event → Host.Outcome State Fault Refusal
  | .hostWrite off v => s.hostWrite off v
  | .hostRead off    => .next (s.logRead (s.hostRead off))
  | .setOpen b       => .next (s.setOpen b)
  | .lineBytes bs    => s.arrive bs
  | .reset           => .next s.resetBlock

/-- The action that brings a code to the block: a write of CMD, or bytes on the line. -/
def eventOfCode : Code → Event
  | .command w => .hostWrite 0x000#12 w
  | .frame bs => .lineBytes bs

end Sys2Proof.Machine
end

