-- ==== Sys2Proof/Machine/Step.lean ====
section
/-!
DEFINITION. Sys2Proof/Machine/Step.lean: one step is one action from outside, in the one total order of
20_memory.md R80. The block fetches no instruction (20_memory.md R84): the next action is the agenda's first.
-/

namespace Sys2Proof.Machine

open Sys2Proof

/-- One step. With no action to come the block does nothing and keeps its state (60_exceptions.md R353). -/
def step (s : State) : Host.Outcome State Fault Refusal :=
  match s.env.agenda with
  | [] => .next s
  | e :: rest => (s.setAgenda rest).perform e

/-- `s` with an instruction put where the next step takes it: in front of the agenda (log entry 3). -/
def State.withFetchWord (s : State) (nbits w : Nat) : State :=
  s.setAgenda (eventOfCode (codeOfTableWord nbits w) :: s.env.agenda)

end Sys2Proof.Machine
end

