-- ==== Sys2Proof/Safety.lean ====
section
/-!
DEFINITION. Sys2Proof/Safety.lean: what a state of a run looks like, in the terms the statements use: the
invariant of the machine, each clause from a rule of spec/. Nothing of the machine calls it. A step never
stops (43_scheduler.md R265), so a safe run is one whose states all meet the invariant.
-/

namespace Sys2Proof.Machine

open Sys2Proof

/-- A queued write frame body (10_state.md R41, 30_encoding.md R103): 11..247 bytes, function 0x10, byte_count
the length of the payload and a multiple of 4, register count half of it. -/
abbrev BodyOk (b : List Byte) : Prop :=
  11 ≤ b.length ∧ b.length ≤ 247 ∧ b.getD 1 0#8 = 0x10#8
    ∧ b.length = 7 + (b.getD 6 0#8).toNat ∧ (b.getD 6 0#8).toNat % 4 = 0
    ∧ half16 (b.getD 4 0#8) (b.getD 5 0#8) = BitVec.ofNat 16 ((b.getD 6 0#8).toNat / 2)

/-- A queued read (10_state.md R42; 43_scheduler.md R231, R252): its motor is one of 1..N_MOTORS, a read not
yet sent has counted nothing, and a count that has begun is below the threshold. -/
abbrev RequestOk (n : Nat) (r : PendingRequest) : Prop :=
  (1 ≤ r.motorId.toNat ∧ r.motorId.toNat ≤ n) ∧ (r.state = .created → r.ticksWaited = 0#32)
    ∧ (r.ticksWaited = 0#32 ∨ r.ticksWaited < r.timeoutTicks)

/-- At most one read awaits its response, and only the head (10_state.md R43). -/
abbrev OnlyHeadAwaits (q : List PendingRequest) : Prop :=
  ∀ r ∈ q.tail, r.state = .created

/-- The bytes of the frame in progress that the parser's running CRC covers (42_parser.md R201 to R205). -/
def Parser.covered (p : Parser) : List Byte :=
  match p.state with
  | .address  => []
  | .function => [p.station]
  | .size     => [p.station, p.func]
  | .data     => [p.station, p.func, p.size] ++ p.data.take p.idx.toNat
  | .crc      => [p.station, p.func, p.size] ++ p.data.take p.size.toNat

/-- The index bounds of each parser state (42_parser.md R203 to R206). -/
def Parser.idxOk (p : Parser) : Bool :=
  match p.state with
  | .address | .function | .size => p.idx == 0#8
  | .data => decide (p.idx.toNat < p.size.toNat)
  | .crc => decide (p.idx.toNat ≤ 1)

/-- The parser in a run: `P_DATA` is its 255 bytes (10_state.md R44), its index is in bounds, and inside a frame
`P_ACC` is the CRC of the bytes taken so far (40_crc.md R135). -/
abbrev Parser.Ok (p : Parser) : Prop :=
  p.data.length = 255 ∧ p.idxOk = true ∧ (p.state ≠ .address → p.acc = crc16 p.covered)

/-- Each bank of the Register Buffer has one value per motor (10_state.md R46). -/
abbrev RegisterBuffer.Sized (rb : RegisterBuffer) (n : Nat) : Prop :=
  rb.pos.length = n ∧ rb.vel.length = n ∧ rb.mode.length = n ∧ rb.acc.length = n ∧ rb.dec.length = n
    ∧ rb.cur.length = n

/-- A result register reads 0 until its valid bit is set (10_state.md R37, R38). -/
abbrev ResultOk (r : MotorResult) : Prop :=
  (r.svalid = false → r.stat = 0#32) ∧ (r.pvalid = false → r.pos = 0#32)

/-- The invariant. -/
abbrev State.Inv (s : State) : Prop :=
  s.params.Ok
    ∧ s.cfgInterval ≠ 0#32
    ∧ (s.pendingWrites.length ≤ s.params.wqDepth ∧ ∀ b ∈ s.pendingWrites, BodyOk b)
    ∧ (s.pendingReads.length ≤ s.params.rqDepth ∧ (∀ r ∈ s.pendingReads, RequestOk s.params.nMotors r)
        ∧ OnlyHeadAwaits s.pendingReads)
    ∧ s.parser.Ok
    ∧ s.ready = []
    ∧ s.rb.Sized s.params.nMotors
    ∧ (s.results.length = s.params.nMotors ∧ ∀ r ∈ s.results, ResultOk r)

end Sys2Proof.Machine
end

