-- ==== Sys2Proof/WellFormed.lean ====
section
/-!
DEFINITION. Sys2Proof/WellFormed.lean: which terms of `Instr` stand for words or frames of the spec.
A command is well formed whatever its ID byte (30_encoding.md R92: the checks of ID against N_MOTORS are the
command's own, R97). A frame is well formed if its batch size is legal and its trailer is its CRC.
-/

namespace Sys2Proof

open Sys2Proof.Machine

/-- The size check of a batch frame: 1 to 60 values (41_frame_codec.md R151), and not the 13-byte and 33-byte
frames, whose bytes are those of WIRE.WRITE_1 and WIRE.WRITE_DD (log entry 6). -/
def Instr.shapeOk : Instr → Bool
  | .wireWriteBatch _ vals _ =>
      decide (1 ≤ vals.length ∧ vals.length ≤ 60 ∧ vals.length ≠ 1 ∧ vals.length ≠ 6)
  | _ => true

/-- The trailer check of a frame: the trailer is the CRC of every byte before it (30_encoding.md R105). -/
def Instr.crcOk : Instr → Bool
  | .wireReadReq st addr crc => crc == crc16 (bodyRead st addr)
  | .wireReadResp st fn v crc => crc == crc16 (bodyResponse st fn v)
  | .wireWrite1 st addr v crc => crc == crc16 (bodyWrite st addr [v])
  | .wireWriteDd st addr p v a d i t crc => crc == crc16 (bodyWrite st addr [p, v, a, d, i, t])
  | .wireWriteBatch addr vals crc => crc == crc16 (bodyWrite 0#8 addr vals)
  | _ => true

/-- Well formed: both checks. -/
def Instr.wellFormed (i : Instr) : Bool := i.shapeOk && i.crcOk

end Sys2Proof
end

