-- ==== Sys2Proof/Certificates/Slice0/Obligations.lean ====
section
/-!
DEFINITION. Sys2Proof/Certificates/Slice0/Obligations.lean: the statements for the provers, from the rules of
spec/. The helpers write frames and words out from the spec's own tables, apart from the model's codec.
-/

namespace Sys2Proof.Claims

open Sys2Proof Sys2Proof.Machine

/-- Byte `k` of a number, counted from the least significant. -/
def byteOf (x k : Nat) : Byte := BitVec.ofNat 8 (x / 256 ^ k)

/-- A 16-bit field as two bytes, high byte first (20_memory.md R72). -/
def bytes16 (x : Half) : List Byte := [byteOf x.toNat 1, byteOf x.toNat 0]

/-- A 32-bit value as four bytes, high byte first (20_memory.md R72). -/
def bytes32 (v : Word) : List Byte :=
  [byteOf v.toNat 3, byteOf v.toNat 2, byteOf v.toNat 1, byteOf v.toNat 0]

/-- A frame from its body: the CRC follows, low byte first (30_encoding.md R105). -/
def frameOf (body : List Byte) : List Byte :=
  body ++ [byteOf (crc16 body).toNat 0, byteOf (crc16 body).toNat 1]

/-- The read request of 30_encoding.md R101. -/
def readFrame (st : Byte) (addr : Half) : List Byte :=
  frameOf ([st, 0x03#8] ++ bytes16 addr ++ [0x00#8, 0x02#8])

/-- The body of a one-value write (30_encoding.md R103). -/
def oneValueBody (st : Byte) (addr : Half) (v : Word) : List Byte :=
  [st, 0x10#8] ++ bytes16 addr ++ [0x00#8, 0x02#8, 0x04#8] ++ bytes32 v

/-- The body of a direct-drive write (41_frame_codec.md R162): 12 registers, 24 bytes. -/
def directDriveBody (st : Byte) (addr : Half) (p v a d c t : Word) : List Byte :=
  [st, 0x10#8] ++ bytes16 addr ++ [0x00#8, 0x0C#8, 0x18#8]
    ++ bytes32 p ++ bytes32 v ++ bytes32 a ++ bytes32 d ++ bytes32 c ++ bytes32 t

/-- The body of a batch write of `vals` (41_frame_codec.md R163): station 0, 2n registers, 4n bytes. -/
def batchBody (addr : Half) (vals : List Word) : List Byte :=
  [0x00#8, 0x10#8] ++ bytes16 addr
    ++ [byteOf (2 * vals.length) 1, byteOf (2 * vals.length) 0, byteOf (4 * vals.length) 0]
    ++ vals.flatMap bytes32

/-- A frame of the read-response shape with the data `ds` (30_encoding.md R102). -/
def responseFrame (st fn : Byte) (ds : List Byte) : List Byte :=
  frameOf ([st, fn, byteOf ds.length 0] ++ ds)

/-- The number of a command word with the ID byte `id`. -/
def wordWithId (base : Nat) (id : Byte) : Word := BitVec.ofNat 32 (base + 256 * id.toNat)

/-- The command word of an instruction, transcribed from 30_encoding.md R92 and R93 (the wire frames have
none). -/
def mapWord : Instr → Option Word
  | .crcInit         => some 0x01000000#32
  | .crcFeed         => some 0x02000000#32
  | .readStatus id   => some (wordWithId 0x10000000 id)
  | .readPosition id => some (wordWithId 0x10010000 id)
  | .rioStart id     => some (wordWithId 0x20000000 id)
  | .rioHome id      => some (wordWithId 0x20010000 id)
  | .rioStop id      => some (wordWithId 0x20020000 id)
  | .rioFree id      => some (wordWithId 0x20030000 id)
  | .rioReset id     => some (wordWithId 0x20040000 id)
  | .rioJogFwd id    => some (wordWithId 0x20050000 id)
  | .rioJogBwd id    => some (wordWithId 0x20060000 id)
  | .rioClear id     => some (wordWithId 0x20070000 id)
  | .netsel id       => some (wordWithId 0x21000000 id)
  | .jogsteps id     => some (wordWithId 0x22000000 id)
  | .jogspeed id     => some (wordWithId 0x23000000 id)
  | .origin id       => some (wordWithId 0x24000000 id)
  | .dd id           => some (wordWithId 0x25000000 id)
  | .batchPos        => some 0x26000000#32
  | .batchVel        => some 0x26010000#32
  | .batchMode       => some 0x26020000#32
  | .batchAcc        => some 0x26030000#32
  | .batchDec        => some 0x26040000#32
  | .cancel          => some 0x27000000#32
  | .stagePos id     => some (wordWithId 0x30000000 id)
  | .stageVel id     => some (wordWithId 0x30010000 id)
  | .stageMode id    => some (wordWithId 0x30020000 id)
  | .stageAcc id     => some (wordWithId 0x30030000 id)
  | .stageDec id     => some (wordWithId 0x30040000 id)
  | .stageCur id     => some (wordWithId 0x30050000 id)
  | .tick            => some 0x40000000#32
  | .update          => some 0x41000000#32
  | _                => none

/-- The STAGE command of a kind (30_encoding.md R93). -/
def stageOf : RbKind → Byte → Instr
  | .pos, id  => .stagePos id
  | .vel, id  => .stageVel id
  | .mode, id => .stageMode id
  | .acc, id  => .stageAcc id
  | .dec, id  => .stageDec id
  | .cur, id  => .stageCur id

/-- The number `k` of a kind (10_state.md R40). -/
def kindIndex : RbKind → Nat
  | .pos => 0
  | .vel => 1
  | .mode => 2
  | .acc => 3
  | .dec => 4
  | .cur => 5

/-- The state with a flag of ERR set (60_exceptions.md R330): the flag's bit number is its code. -/
def flagged (s : State) (code : Nat) : State := { s with err := s.err ||| BitVec.ofNat 10 (2 ^ code) }

/-- BADCMD for the other words of an opcode: SEL above the greatest legal value, RSV not 0, or ID not 0 where it
must be 0. CMD takes the word and nothing else happens (30_encoding.md R96, 60_exceptions.md R332). -/
def RefusesOtherWords (op maxSel : Nat) (idMustBeZero : Bool) : Prop :=
  ∀ (s : State) (w : Word), w.toNat / 2 ^ 24 = op →
    (maxSel < w.toNat / 2 ^ 16 % 256 ∨ w.toNat % 256 ≠ 0
      ∨ (idMustBeZero = true ∧ w.toNat / 2 ^ 8 % 256 ≠ 0)) →
    s.hostWrite 0x000#12 w = .next (flagged { s with cmd := w } 0)

/-- The state with one more queued write. -/
def queued (s : State) (body : List Byte) : State := { s with pendingWrites := s.pendingWrites ++ [body] }

/-- The state with its next action taken off. -/
def actionTaken (s : State) (rest : List Event) : State := { s with env := { s.env with agenda := rest } }

/-- `n` TICK commands in a row. -/
def tickTimes : Nat → State → Host.Outcome State Fault Refusal
  | 0, s => .next s
  | n + 1, s =>
    match exec .tick s with
    | .next t => tickTimes n t
    | .fault r => .fault r
    | .refused r => .refused r

/-- The result registers of motor `m` with a value of a kind applied (44_staging_and_results.md R293, R294). -/
def applied (r : MotorResult) (k : RegKind) (v : Word) : MotorResult :=
  match k with
  | .status => { r with stat := v, svalid := true }
  | .position => { r with pos := v, pvalid := true }

/-- The reads left by the line step of an open tick, before the bytes are taken (43_scheduler.md R252, R253): an
unsent head is sent, an awaiting head counts one tick or is dropped. -/
def readsAfterLine : List PendingRequest → List PendingRequest
  | [] => []
  | h :: rest =>
    match h.state with
    | .created => { h with state := .awaitingResponse } :: rest
    | .awaitingResponse =>
      if h.timeoutTicks ≤ h.ticksWaited + 1#32 then rest
      else { h with ticksWaited := h.ticksWaited + 1#32 } :: rest

/-- The value of a Response of four data bytes, high byte first; any other Response has none
(41_frame_codec.md R153). -/
def responseValue (r : Response) : Option Word :=
  if r.byteCount = 4#8 then
    some (BitVec.ofNat 32 ((r.data.getD 0 0#8).toNat * 2 ^ 24 + (r.data.getD 1 0#8).toNat * 2 ^ 16
      + (r.data.getD 2 0#8).toNat * 2 ^ 8 + (r.data.getD 3 0#8).toNat))
  else none

/-- The result registers of motor `m` after a read and the Response that resolves it (43_scheduler.md R256,
R257): changed only if the read is for `m` and the Response has a value. -/
def resolvedWith (m : Nat) (res : MotorResult) (pair : PendingRequest × Response) : MotorResult :=
  match responseValue pair.2 with
  | some v => if pair.1.motorId.toNat = m then applied res pair.1.kind v else res
  | none => res

/-- The commands that append to `pending_writes` (41_frame_codec.md R157 to R163). -/
def queuesWrite : Instr → Bool
  | .rioStart _ | .rioHome _ | .rioStop _ | .rioFree _ | .rioReset _ | .rioJogFwd _ | .rioJogBwd _ | .rioClear _
  | .netsel _ | .jogsteps _ | .jogspeed _ | .origin _ | .dd _
  | .batchPos | .batchVel | .batchMode | .batchAcc | .batchDec => true
  | _ => false

/-- The flags of ERR, by code, that the rule of an instruction lets it set (10_state.md R28): the reads INVADDR
and QFULL, CANCEL CANCELMISS, STAGE INVADDR, a tick CRCERR, TIMEOUT, BADLEN and ROVF, the queueing commands
QFULL, every other one none. -/
def mayRaise (i : Instr) : List Nat :=
  match i with
  | .readStatus _ | .readPosition _ => [1, 2]
  | .cancel => [9]
  | .stagePos _ | .stageVel _ | .stageMode _ | .stageAcc _ | .stageDec _ | .stageCur _ => [1]
  | .tick | .update => [3, 4, 5, 7]
  | i => if queuesWrite i then [2] else []

/-- The surroundings in which bytes can be taken for the start of a frame and its Response can be kept: the
transport is open, the parser is in ADDRESS and whole, the ready queue is empty and can hold an entry, and
there is one result register set per motor. All but the first two hold in every state of a run. -/
def Listening (s : State) : Prop :=
  s.env.isOpen = true ∧ s.parser.state = .address ∧ s.parser.data.length = 255 ∧ s.ready = []
    ∧ 1 ≤ s.params.readyDepth ∧ s.results.length = s.params.nMotors

end Sys2Proof.Claims

open Sys2Proof Sys2Proof.Machine Sys2Proof.Claims

/-! ## Encoding -/

/-- O1. A write of CMD runs the decoded command on the state in which CMD has taken the word, or raises BADCMD
(30_encoding.md R91). The agenda is the model's own (log entry 2). -/
def Obligations.StepRunsTheDecodedCommand : Prop :=
  ∀ (s : State) (w : Word) (rest : List Event), s.env.agenda = .hostWrite 0x000#12 w :: rest →
    (∀ i, decode (.command w) = .ok i → step s = exec i { actionTaken s rest with cmd := w }) ∧
    ((∀ i, decode (.command w) ≠ .ok i) →
      step s = .next (flagged { actionTaken s rest with cmd := w } 0))

/-- O2. Bytes on the line that are a frame of the table run that frame; any other bytes just arrive. The model's
choice (log entries 2 and 5); that any bytes may arrive is 20_memory.md R78. -/
def Obligations.StepRunsTheDecodedFrame : Prop :=
  ∀ (s : State) (bs : List Byte) (rest : List Event), s.env.agenda = .lineBytes bs :: rest →
    (∀ i, decode (.frame bs) = .ok i → step s = exec i (actionTaken s rest)) ∧
    ((∀ i, decode (.frame bs) ≠ .ok i) →
      step s = .next { s with env := { s.env with rx := s.env.rx ++ bs, agenda := rest } })

/-- O3. The command words are exactly those of the opcode map (30_encoding.md R92, R93). -/
def Obligations.CommandWordsAreTheOpcodeMap : Prop :=
  ∀ (w : Word) (i : Instr), decode (.command w) = .ok i ↔ mapWord i = some w

/-- O4. A word is illegal exactly when one of the conditions (a) to (d) of 30_encoding.md R96 holds: then CMD takes
it, BADCMD is raised and nothing else happens (60_exceptions.md R332). Any other word runs its command. -/
def Obligations.IllegalWordsAreTheFourConditions : Prop :=
  ∀ (s : State) (w : Word),
    let op := w.toNat / 2 ^ 24
    let sel := w.toNat / 2 ^ 16 % 256
    let id := w.toNat / 2 ^ 8 % 256
    let rsv := w.toNat % 256
    let legal := rsv = 0 ∧
      ((op ∈ [0x01, 0x02, 0x27, 0x40, 0x41] ∧ sel = 0 ∧ id = 0) ∨ (op = 0x10 ∧ sel ≤ 1)
        ∨ (op = 0x20 ∧ sel ≤ 7) ∨ (op ∈ [0x21, 0x22, 0x23, 0x24, 0x25] ∧ sel = 0)
        ∨ (op = 0x26 ∧ sel ≤ 4 ∧ id = 0) ∨ (op = 0x30 ∧ sel ≤ 5))
    (legal → ∃ i, decode (.command w) = .ok i ∧ s.hostWrite 0x000#12 w = exec i { s with cmd := w }) ∧
    (¬ legal → s.hostWrite 0x000#12 w = .next (flagged { s with cmd := w } 0))

/-- O5. Decoding what the encoder writes gives the instruction back, for every instruction whose batch size is
legal, with every operand at every value. That a batch of 1 or 6 values is read as WIRE.WRITE_1 or WIRE.WRITE_DD,
whose bytes it has, is the model's choice (log entry 6). -/
def Obligations.DecodeOfEncodeIsIdentity : Prop :=
  ∀ i : Instr, i.shapeOk = true → decode (encode i) = .ok i

/-- O6. Encoding what the decoder reads gives the code back, bit for bit, and no code is read as a batch of 1 or 6
values. The second clause, and so that each code has one meaning, is the model's choice (log entry 6): 30_encoding.md
R107 lets BATCH carry 1 and 6 values, which have the bytes of the two other write rows. -/
def Obligations.EncodeOfDecodeIsIdentity : Prop :=
  ∀ (c : Code) (i : Instr), decode c = .ok i → encode i = c ∧ i.shapeOk = true

/-- O7. A few words and frames of 95_test_vectors.md decode to what they stand for. -/
def Obligations.SpecWordsDecode : Prop :=
  decode (.command 0x10010100#32) = .ok (.readPosition 1#8)
    ∧ decode (.command 0x20020000#32) = .ok (.rioStop 0#8)
    ∧ decode (.command 0x26000000#32) = .ok .batchPos
    ∧ decode (.command 0x30050100#32) = .ok (.stageCur 1#8)
    ∧ decode (.command 0x41000000#32) = .ok .update
    ∧ decode (.command 0x41000001#32) = .error .badRsv
    ∧ decode (.frame [0x01#8, 0x03#8, 0x04#8, 0x00#8, 0x00#8, 0x03#8, 0xE8#8, 0xFA#8, 0x8D#8])
        = .ok (.wireReadResp 1#8 3#8 1000#32 0x8DFA#16)

/-- O8. The frames the codec builds are the wire rows of the table, well formed, trailer included
(30_encoding.md R101 to R103). -/
def Obligations.CodecFramesAreWireRows : Prop :=
  (∀ st addr, ∃ c, decode (.frame (buildRead st addr)) = .ok (.wireReadReq st addr c)
      ∧ (Instr.wireReadReq st addr c).wellFormed = true) ∧
  (∀ st addr v, ∃ c, decode (.frame (withTrailer (bodyWrite st addr [v]))) = .ok (.wireWrite1 st addr v c)
      ∧ (Instr.wireWrite1 st addr v c).wellFormed = true) ∧
  (∀ st addr p v a d i t, ∃ c,
      decode (.frame (withTrailer (bodyWrite st addr [p, v, a, d, i, t])))
          = .ok (.wireWriteDd st addr p v a d i t c)
        ∧ (Instr.wireWriteDd st addr p v a d i t c).wellFormed = true) ∧
  (∀ addr vals, 1 < vals.length → vals.length ≤ 60 → vals.length ≠ 6 → ∃ c,
      decode (.frame (withTrailer (bodyWrite 0#8 addr vals))) = .ok (.wireWriteBatch addr vals c)
        ∧ (Instr.wireWriteBatch addr vals c).wellFormed = true)

/-! ## The CRC engine -/

/-- O9. `crc_step` is the loop of 40_crc.md R130, with its three examples. -/
def Obligations.CrcStepIsTheShiftLoop : Prop :=
  (∀ (c : Half) (b : Byte),
    (crcStep c b).toNat =
      (fun x : Nat => if x % 2 = 1 then x / 2 ^^^ 0xA001 else x / 2)^[8] (c.toNat ^^^ b.toNat)) ∧
  crcStep 0xFFFF#16 0x00#8 = 0x40BF#16 ∧ crcStep 0xFFFF#16 0x01#8 = 0x807E#16
    ∧ crcStep 0x0000#16 0x01#8 = 0xC0C1#16

/-- O10. The residue property: a byte sequence followed by its own trailer has the CRC 0. -/
def Obligations.CrcResidueIsZero : Prop :=
  ∀ m : List Byte, crc16 (frameOf m) = 0x0000#16

/-- O11. CRC.INIT (40_crc.md R132): its word and no other, its effect, its frame, and the example. -/
def Obligations.CrcInitResult : Prop :=
  (∀ w, decode (.command w) = .ok .crcInit ↔ w = 0x01000000#32) ∧ RefusesOtherWords 0x01 0 true ∧
  ∀ s : State, exec .crcInit s = .next { s with crcReg := 0xFFFF#16 }
    ∧ ({ s with crcReg := 0xFFFF#16 } : State).hostRead 0x008#12 = 0x0000FFFF#32

/-- O12. CRC.FEED (40_crc.md R133): its word and no other, its effect, which reads `ARG0[7:0]` alone, its frame;
feeding the trailer of what was fed leaves 0. -/
def Obligations.CrcFeedResult : Prop :=
  (∀ w, decode (.command w) = .ok .crcFeed ↔ w = 0x02000000#32) ∧ RefusesOtherWords 0x02 0 true ∧
  (∀ s : State, exec .crcFeed s
    = .next { s with crcReg := crcStep s.crcReg (BitVec.ofNat 8 (s.args.arg0.toNat % 256)) }) ∧
  ∀ c : Half, crcStep (crcStep c (byteOf c.toNat 0)) (byteOf c.toNat 1) = 0x0000#16

/-- O13. Feeding a byte extends the CRC by that byte, so feeding byte by byte from 0xFFFF computes `crc16`
(40_crc.md R135). -/
def Obligations.CrcFeedExtendsTheCrc : Prop :=
  ∀ (s : State) (m : List Byte), s.crcReg = crc16 m →
    ∃ t, exec .crcFeed s = .next t ∧ t.crcReg = crc16 (m ++ [byteOf s.args.arg0.toNat 0])

/-! ## Commands that queue -/

/-- O14. READ.STATUS and READ.POSITION (43_scheduler.md R230): words, BADCMD, INVADDR first, then QFULL, else a Created
request with the timeout of CFG_TIMEOUT; nothing else changes. -/
def Obligations.ReadCommandsQueueARequest : Prop :=
  ∀ (s : State) (m : Byte) (i : Instr) (k : RegKind) (base : Nat),
    (i, k, base) ∈ [(Instr.readStatus m, RegKind.status, 0x10000000),
      (Instr.readPosition m, RegKind.position, 0x10010000)] →
    (∀ w, decode (.command w) = .ok i ↔ w = wordWithId base m) ∧ RefusesOtherWords 0x10 1 false ∧
    (m = 0#8 ∨ s.params.nMotors < m.toNat → exec i s = .next (flagged s 1)) ∧
    (m ≠ 0#8 → m.toNat ≤ s.params.nMotors → s.pendingReads.length = s.params.rqDepth →
      exec i s = .next (flagged s 2)) ∧
    (m ≠ 0#8 → m.toNat ≤ s.params.nMotors → s.pendingReads.length ≠ s.params.rqDepth →
      exec i s = .next { s with
        pendingReads := s.pendingReads ++
          [{ motorId := m, kind := k, state := .created, ticksWaited := 0#32, timeoutTicks := s.cfgTimeout }] })

/-- O15. The eight RIO commands (41_frame_codec.md R157): words, BADCMD, the mask each writes, QFULL; nothing else
changes. -/
def Obligations.RioCommandsQueueTheirMask : Prop :=
  ∀ (s : State) (id : Byte) (i : Instr) (c : Nat) (mask : Word),
    (i, c, mask) ∈ [(Instr.rioStart id, 0, s.params.rioMask.start), (Instr.rioHome id, 1, s.params.rioMask.home),
      (Instr.rioStop id, 2, s.params.rioMask.stop), (Instr.rioFree id, 3, s.params.rioMask.free),
      (Instr.rioReset id, 4, s.params.rioMask.reset), (Instr.rioJogFwd id, 5, s.params.rioMask.jogFwd),
      (Instr.rioJogBwd id, 6, s.params.rioMask.jogBwd), (Instr.rioClear id, 7, s.params.rioMask.clear)] →
    (∀ w, decode (.command w) = .ok i ↔ w = wordWithId (0x20000000 + 0x10000 * c) id) ∧ RefusesOtherWords 0x20 7 false ∧
    (s.pendingWrites.length ≠ s.params.wqDepth →
      exec i s = .next (queued s (oneValueBody id s.params.addrRio mask))) ∧
    (s.pendingWrites.length = s.params.wqDepth → exec i s = .next (flagged s 2))

/-- O16. NETSEL, JOGSTEPS, JOGSPEED, ORIGIN (41_frame_codec.md R158 to R161): words, BADCMD, ARG0 packed
unchanged, QFULL; nothing else changes. -/
def Obligations.Arg0CommandsQueueArg0 : Prop :=
  ∀ (s : State) (id : Byte) (i : Instr) (op : Nat) (addr : Half),
    (i, op, addr) ∈ [(Instr.netsel id, 0x21, s.params.addrNetsel), (Instr.jogsteps id, 0x22, s.params.addrJogsteps),
      (Instr.jogspeed id, 0x23, s.params.addrJogspeed), (Instr.origin id, 0x24, s.params.addrOrigin)] →
    (∀ w, decode (.command w) = .ok i ↔ w = wordWithId (0x1000000 * op) id) ∧ RefusesOtherWords op 0 false ∧
    (s.pendingWrites.length ≠ s.params.wqDepth →
      exec i s = .next (queued s (oneValueBody id addr s.args.arg0))) ∧
    (s.pendingWrites.length = s.params.wqDepth → exec i s = .next (flagged s 2))

/-- O17. DD (41_frame_codec.md R162): word, BADCMD, the six ARG registers in order, QFULL; nothing else changes. -/
def Obligations.DirectDriveQueuesSixValues : Prop :=
  ∀ (s : State) (id : Byte),
    (∀ w, decode (.command w) = .ok (.dd id) ↔ w = wordWithId 0x25000000 id) ∧ RefusesOtherWords 0x25 0 false ∧
    (s.pendingWrites.length ≠ s.params.wqDepth →
      exec (.dd id) s = .next (queued s (directDriveBody id s.params.addrDd
        s.args.arg0 s.args.arg1 s.args.arg2 s.args.arg3 s.args.arg4 s.args.arg5))) ∧
    (s.pendingWrites.length = s.params.wqDepth → exec (.dd id) s = .next (flagged s 2))

/-- O18. The five BATCH commands (41_frame_codec.md R163): words, BADCMD, a snapshot of the kind's values to station 0,
QFULL; nothing else changes. The buffer has one value per motor, as in every state of a run. -/
def Obligations.BatchCommandsQueueTheBuffer : Prop :=
  ∀ (s : State) (i : Instr) (c : Nat) (addr : Half) (vals : List Word), s.rb.Sized s.params.nMotors →
    (i, c, addr, vals) ∈ [(Instr.batchPos, 0, s.params.addrBatch.pos, s.rb.pos),
      (Instr.batchVel, 1, s.params.addrBatch.vel, s.rb.vel), (Instr.batchMode, 2, s.params.addrBatch.mode, s.rb.mode),
      (Instr.batchAcc, 3, s.params.addrBatch.acc, s.rb.acc), (Instr.batchDec, 4, s.params.addrBatch.dec, s.rb.dec)] →
    (∀ w, decode (.command w) = .ok i ↔ w = BitVec.ofNat 32 (0x26000000 + 0x10000 * c)) ∧ RefusesOtherWords 0x26 4 true ∧
    (s.pendingWrites.length ≠ s.params.wqDepth → exec i s = .next (queued s (batchBody addr vals))) ∧
    (s.pendingWrites.length = s.params.wqDepth → exec i s = .next (flagged s 2))

/-- O19. The batch windows (41_frame_codec.md R165): payload bytes 4j..4j+3 of the queued frame hold the value of
motor j+1, big-endian, and there are exactly N_MOTORS windows. -/
def Obligations.BatchWindowsFollowTheMotors : Prop :=
  ∀ (s : State) (i : Instr) (k : RbKind),
    (i, k) ∈ [(Instr.batchPos, RbKind.pos), (Instr.batchVel, RbKind.vel), (Instr.batchMode, RbKind.mode),
      (Instr.batchAcc, RbKind.acc), (Instr.batchDec, RbKind.dec)] →
    s.pendingWrites.length ≠ s.params.wqDepth →
    ∃ body t, exec i s = .next t ∧ t.pendingWrites = s.pendingWrites ++ [body]
      ∧ body.length = 7 + 4 * s.params.nMotors
      ∧ ∀ j < s.params.nMotors, (body.drop (7 + 4 * j)).take 4 = bytes32 (s.rbValue k (j + 1))

/-- O20. CANCEL (43_scheduler.md R234): word, BADCMD, removal of entry ARG0 with the order of the others kept,
CANCELMISS; nothing else changes. -/
def Obligations.CancelRemovesOneWrite : Prop :=
  (∀ w, decode (.command w) = .ok .cancel ↔ w = 0x27000000#32) ∧ RefusesOtherWords 0x27 0 true ∧
  ∀ s : State,
    (s.args.arg0.toNat < s.pendingWrites.length →
      exec .cancel s = .next { s with
        pendingWrites := s.pendingWrites.take s.args.arg0.toNat ++ s.pendingWrites.drop (s.args.arg0.toNat + 1) }) ∧
    (s.pendingWrites.length ≤ s.args.arg0.toNat → exec .cancel s = .next (flagged s 9))

/-- O21. STAGE (44_staging_and_results.md R290): words, BADCMD, the slots it writes as the host reads them back, INVADDR,
and nothing but the Register Buffer changes. -/
def Obligations.StageWritesItsSlots : Prop :=
  ∀ (s : State) (k : RbKind) (m : Byte), s.rb.Sized s.params.nMotors →
    (∀ w, decode (.command w) = .ok (stageOf k m) ↔ w = wordWithId (0x30000000 + 0x10000 * kindIndex k) m) ∧
      RefusesOtherWords 0x30 5 false ∧
    (m.toNat ≤ s.params.nMotors →
      ∃ rb, exec (stageOf k m) s = .next { s with rb := rb } ∧ rb.Sized s.params.nMotors ∧
        ∀ (k' : RbKind) (j : Nat), ({ s with rb := rb } : State).rbValue k' j =
          if k' = k ∧ (m = 0#8 ∨ m.toNat = j) ∧ 1 ≤ j ∧ j ≤ s.params.nMotors then s.args.arg0
          else s.rbValue k' j) ∧
    (s.params.nMotors < m.toNat → exec (stageOf k m) s = .next (flagged s 1))

/-- O22. A command other than TICK and UPDATE raises at most one error, and one that raises an error changes
nothing but ERR (60_exceptions.md R343, R346). -/
def Obligations.RefusedCommandsChangeOnlyErr : Prop :=
  ∀ (i : Instr) (s : State), i ≠ .tick → i ≠ .update →
    ∃ t, exec i s = .next t ∧
      (t.err = s.err ∨ ∃ code ∈ [1, 2, 9], t = flagged s code)

/-! ## The tick -/

/-- O23. A closed tick changes no state, however often it is repeated (43_scheduler.md R251). -/
def Obligations.ClosedTickChangesNothing : Prop :=
  ∀ (s : State) (n : Nat), s.env.isOpen = false → exec .tick s = .next s ∧ tickTimes n s = .next s

/-- O24. What an open tick transmits (43_scheduler.md R252 to R254), whatever bytes wait on the line: the head
read if it was not sent, nothing while the head awaits, else the head write, else nothing. -/
def Obligations.OpenTickTransmits : Prop :=
  ∀ s : State, s.env.isOpen = true → ∃ t, exec .tick s = .next t ∧ t.cntTick = s.cntTick + 1 ∧
    (∀ h rest, s.pendingReads = h :: rest → h.state = .created →
      t.env.tx = s.env.tx ++ [readFrame h.motorId
          (match h.kind with | .status => s.params.addrStatus | .position => s.params.addrPosition)]
        ∧ t.cntTx = s.cntTx + 1 ∧ t.pendingWrites = s.pendingWrites) ∧
    (∀ h rest, s.pendingReads = h :: rest → h.state = .awaitingResponse →
      t.env.tx = s.env.tx ∧ t.cntTx = s.cntTx ∧ t.pendingWrites = s.pendingWrites) ∧
    (s.pendingReads = [] → ∀ body rest, s.pendingWrites = body :: rest →
      t.env.tx = s.env.tx ++ [frameOf body] ∧ t.cntTx = s.cntTx + 1 ∧ t.pendingWrites = rest) ∧
    (s.pendingReads = [] → s.pendingWrites = [] →
      t.env.tx = s.env.tx ∧ t.cntTx = s.cntTx ∧ t.pendingWrites = [])

/-- O25. An open tick with a silent line, step by step (43_scheduler.md R250, R252 to R254): the whole next
state. -/
def Obligations.SilentTickResult : Prop :=
  ∀ s : State, s.env.isOpen = true → s.env.rx = [] → s.ready = [] →
    (∀ h rest, s.pendingReads = h :: rest → h.state = .created →
      exec .tick s = .next { s with
        cntTick := s.cntTick + 1, cntTx := s.cntTx + 1
        pendingReads := { h with state := .awaitingResponse } :: rest
        env := { s.env with tx := s.env.tx ++ [readFrame h.motorId
          (match h.kind with | .status => s.params.addrStatus | .position => s.params.addrPosition)] } }) ∧
    (∀ h rest, s.pendingReads = h :: rest → h.state = .awaitingResponse →
      h.ticksWaited + 1#32 < h.timeoutTicks →
      exec .tick s = .next { s with
        cntTick := s.cntTick + 1, pendingReads := { h with ticksWaited := h.ticksWaited + 1#32 } :: rest }) ∧
    (∀ h rest, s.pendingReads = h :: rest → h.state = .awaitingResponse →
      h.timeoutTicks ≤ h.ticksWaited + 1#32 →
      exec .tick s = .next { flagged s 4 with
        cntTick := s.cntTick + 1, cntTimeout := s.cntTimeout + 1, pendingReads := rest }) ∧
    (s.pendingReads = [] → ∀ body rest, s.pendingWrites = body :: rest →
      exec .tick s = .next { s with
        cntTick := s.cntTick + 1, cntTx := s.cntTx + 1, pendingWrites := rest
        env := { s.env with tx := s.env.tx ++ [frameOf body] } }) ∧
    (s.pendingReads = [] → s.pendingWrites = [] →
      exec .tick s = .next { s with cntTick := s.cntTick + 1 })

/-- O26. Timeout determinism (43_scheduler.md R264): a read sent at one tick with the threshold n is dropped at
the n-th tick after it, not before, and each tick between counts one. -/
def Obligations.TimeoutFallsOnTheExactTick : Prop :=
  ∀ (s : State) (h : PendingRequest) (rest : List PendingRequest),
    s.env.isOpen = true → s.env.rx = [] → s.ready = [] → s.pendingReads = h :: rest → h.state = .created →
    h.ticksWaited = 0#32 → 1 ≤ h.timeoutTicks.toNat →
    (∀ k < h.timeoutTicks.toNat, ∃ t, tickTimes (k + 1) s = .next t
      ∧ t.pendingReads = { h with state := .awaitingResponse, ticksWaited := BitVec.ofNat 32 k } :: rest
      ∧ t.cntTimeout = s.cntTimeout ∧ t.err = s.err) ∧
    ∃ t, tickTimes (h.timeoutTicks.toNat + 1) s = .next t ∧ t.pendingReads = rest
      ∧ t.cntTimeout = s.cntTimeout + 1 ∧ t.err = s.err ||| 0x010#10

/-- O27. Whatever waits on the line, an open tick runs the parser over exactly those bytes, from where the parser
stands (43_scheduler.md R255, 42_parser.md R210): the parser and CNT_CRC_ERR are those of the bytes fed to it, CRCERR
and ROVF are set exactly if they were set or that feed sets them. The ready queue and the transport's buffer are then
empty, and no register of another unit is touched. -/
def Obligations.OpenTickDrainsAndKeepsTheRest : Prop :=
  ∀ s : State, s.env.isOpen = true → ∃ t, exec .tick s = .next t ∧ t.ready = [] ∧ t.env.rx = []
    ∧ t.parser = (s.feed s.env.rx).parser ∧ t.cntCrcErr = (s.feed s.env.rx).cntCrcErr
    ∧ t.err.getLsbD 3 = (s.feed s.env.rx).err.getLsbD 3 ∧ t.err.getLsbD 7 = (s.feed s.env.rx).err.getLsbD 7
    ∧ t.params = s.params ∧ t.cmd = s.cmd ∧ t.args = s.args ∧ t.crcReg = s.crcReg
    ∧ t.cfgInterval = s.cfgInterval ∧ t.cfgTimeout = s.cfgTimeout ∧ t.timeRef = s.timeRef ∧ t.rb = s.rb
    ∧ t.env.isOpen = s.env.isOpen ∧ t.env.reads = s.env.reads ∧ t.env.agenda = s.env.agenda

/-- O28. Result registers change only for motors with a queued read (43_scheduler.md R256, R257). -/
def Obligations.ResultsChangeOnlyForQueuedReads : Prop :=
  ∀ (s : State) (i : Instr) (m : Nat), (∀ r ∈ s.pendingReads, r.motorId.toNat ≠ m) →
    ∃ t, exec i s = .next t ∧ t.result m = s.result m

/-! ## The parser and correlation -/

/-- O29. The parser on one frame of the read-response shape, from ADDRESS (42_parser.md R201 to R207): accepted
with exactly its fields when the trailer is its CRC, dropped with ROVF when the ready queue is full, discarded
with CRCERR otherwise; back in ADDRESS either way, and nothing else changes. -/
def Obligations.ParserTakesOneFrame : Prop :=
  ∀ (s : State) (st fn lo hi : Byte) (ds : List Byte),
    s.parser.state = .address → s.parser.data.length = 255 → ds.length ≤ 255 →
    let body := [st, fn, byteOf ds.length 0] ++ ds
    let t := s.feed (body ++ [lo, hi])
    let rx := BitVec.ofNat 16 (lo.toNat + 256 * hi.toNat)
    t.parser.state = .address ∧ t.parser.idx = 0#8 ∧
    (rx = crc16 body → s.ready.length < s.params.readyDepth →
      { t with parser := s.parser } = { s with
        ready := s.ready ++
          [{ stationId := st, function := fn, byteCount := byteOf ds.length 0, data := ds, crc16 := rx }] }) ∧
    (rx = crc16 body → s.params.readyDepth ≤ s.ready.length →
      { t with parser := s.parser } = flagged s 7) ∧
    (rx ≠ crc16 body →
      { t with parser := s.parser } = { flagged s 3 with cntCrcErr := s.cntCrcErr + 1 })

/-- O30. A read comes back: in a tick that sends the head read or still awaits it, the bytes of a valid 4-byte
response, from any station and with any function byte, put their value into the head's result register, set its
valid bit, remove the read and touch no other motor (41_frame_codec.md R167, 43_scheduler.md R256). -/
def Obligations.ReadResponseReachesTheResultRegister : Prop :=
  ∀ (s : State) (h : PendingRequest) (rest : List PendingRequest) (st fn : Byte) (v : Word),
    Listening s → s.pendingReads = h :: rest → 1 ≤ h.motorId.toNat → h.motorId.toNat ≤ s.params.nMotors →
    (h.state = .created ∨ h.ticksWaited + 1#32 < h.timeoutTicks) →
    s.env.rx = responseFrame st fn (bytes32 v) →
    ∃ t, exec .tick s = .next t ∧ t.pendingReads = rest ∧ t.err = s.err
      ∧ t.cntResolved = s.cntResolved + 1 ∧ t.cntUnsol = s.cntUnsol ∧ t.cntTimeout = s.cntTimeout
      ∧ ∀ m, t.result m =
          if m = h.motorId.toNat then applied (s.result m) h.kind v else s.result m

/-- O31. A response of another length resolves the head with BADLEN and applies no value (43_scheduler.md R256,
60_exceptions.md R337). -/
def Obligations.OtherLengthResolvesWithBadLen : Prop :=
  ∀ (s : State) (h : PendingRequest) (rest : List PendingRequest) (st fn : Byte) (ds : List Byte),
    Listening s → s.pendingReads = h :: rest → (h.state = .created ∨ h.ticksWaited + 1#32 < h.timeoutTicks) →
    ds.length ≤ 255 → ds.length ≠ 4 → s.env.rx = responseFrame st fn ds →
    ∃ t, exec .tick s = .next t ∧ t.pendingReads = rest ∧ t.err = s.err ||| 0x020#10
      ∧ t.cntResolved = s.cntResolved + 1 ∧ t.results = s.results

/-- O32. A response with no read pending is counted and discarded: no flag, no result register changes
(43_scheduler.md R256, 60_exceptions.md R342). -/
def Obligations.UnsolicitedResponseIsOnlyCounted : Prop :=
  ∀ (s : State) (st fn : Byte) (ds : List Byte),
    Listening s → s.pendingReads = [] → ds.length ≤ 255 → s.env.rx = responseFrame st fn ds →
    ∃ t, exec .tick s = .next t ∧ t.pendingReads = [] ∧ t.err = s.err ∧ t.cntUnsol = s.cntUnsol + 1
      ∧ t.cntResolved = s.cntResolved ∧ t.results = s.results

/-- O33. The late response (70_reset_and_hazards.md R375): in the tick that drops the head on timeout, a valid
response resolves the next read, which was never sent. -/
def Obligations.LateResponseResolvesTheNextRead : Prop :=
  ∀ (s : State) (h h2 : PendingRequest) (rest : List PendingRequest) (st fn : Byte) (v : Word),
    Listening s → s.pendingReads = h :: h2 :: rest → h.state = .awaitingResponse →
    h.timeoutTicks ≤ h.ticksWaited + 1#32 → 1 ≤ h2.motorId.toNat → h2.motorId.toNat ≤ s.params.nMotors →
    s.env.rx = responseFrame st fn (bytes32 v) →
    ∃ t, exec .tick s = .next t ∧ t.pendingReads = rest ∧ t.err = s.err ||| 0x010#10 ∧ t.env.tx = s.env.tx
      ∧ t.cntTimeout = s.cntTimeout + 1 ∧ t.cntResolved = s.cntResolved + 1
      ∧ ∀ m, t.result m =
          if m = h2.motorId.toNat then applied (s.result m) h2.kind v else s.result m

/-- O34. Each frame attempt ends: within any 260 bytes the parser is back in ADDRESS (90_conflicts.md C2,
42_parser.md R201 to R206). -/
def Obligations.FrameAttemptEndsWithin260Bytes : Prop :=
  ∀ (s : State) (bs : List Byte), s.parser.idxOk = true → 260 ≤ bs.length →
    ∃ k, 1 ≤ k ∧ k ≤ 260 ∧ (s.feed (bs.take k)).parser.state = .address

/-! ## The interval ticker -/

/-- O35. UPDATE (43_scheduler.md R261, R262): its word and no other; below the interval nothing happens; otherwise
one tick runs with the reference point moved forward by whole intervals to less than one interval before `now`. -/
def Obligations.UpdateCatchesUpByWholeIntervals : Prop :=
  (∀ w, decode (.command w) = .ok .update ↔ w = 0x41000000#32) ∧ RefusesOtherWords 0x41 0 true ∧
  ∀ s : State, s.cfgInterval ≠ 0#32 →
    let elapsed := (s.args.arg0.toNat + 2 ^ 32 - s.timeRef.toNat) % 2 ^ 32
    (elapsed < s.cfgInterval.toNat → exec .update s = .next s) ∧
    (s.cfgInterval.toNat ≤ elapsed →
      ∃ r t, exec .tick { s with timeRef := r } = .next t ∧ exec .update s = .next t ∧ t.timeRef = r
        ∧ r.toNat = (s.timeRef.toNat + elapsed / s.cfgInterval.toNat * s.cfgInterval.toNat) % 2 ^ 32
        ∧ (s.args.arg0.toNat + 2 ^ 32 - r.toNat) % 2 ^ 32 < s.cfgInterval.toNat)

/-- O36. UPDATE twice with the same `now` fires at most once: the second one changes nothing (43_scheduler.md
R262). -/
def Obligations.UpdateTwiceFiresOnce : Prop :=
  ∀ s : State, s.cfgInterval ≠ 0#32 → ∃ t, exec .update s = .next t ∧ exec .update t = .next t

/-- O37. UPDATE with the transport closed moves only the reference point (43_scheduler.md R262). -/
def Obligations.UpdateWhileClosedMovesOnlyTheReference : Prop :=
  ∀ s : State, s.env.isOpen = false → ∃ r, exec .update s = .next { s with timeRef := r }

/-! ## Whole-machine rules -/

/-- O38. Every step keeps the invariant. -/
def Obligations.EveryStepKeepsTheInvariant : Prop :=
  ∀ s t : State, s.Inv → step s = .next t → t.Inv

/-- O39. The invariant holds after reset, whatever the legal parameters and the surroundings. -/
def Obligations.ResetMeetsTheInvariant : Prop :=
  ∀ (p : Params) (e : Env), p.Ok → (State.resetWith p e).Inv

/-- O40. One frame a step, half duplex (43_scheduler.md R263): a step transmits nothing, or it is a TICK or an
UPDATE with the transport open that sends one frame, and no read is awaiting its response; with a read queued it
is that read's request and no write leaves, with none queued it is the oldest write. -/
def Obligations.StepTransmitsAtMostOneFrame : Prop :=
  ∀ s t : State, step s = .next t →
    t.env.tx = s.env.tx ∨
    ∃ f w rest, t.env.tx = s.env.tx ++ [f] ∧ t.cntTx = s.cntTx + 1 ∧ s.env.isOpen = true
      ∧ s.env.agenda = .hostWrite 0x000#12 w :: rest ∧ (w = 0x40000000#32 ∨ w = 0x41000000#32)
      ∧ ((∃ h hs, s.pendingReads = h :: hs ∧ h.state = .created ∧ t.pendingWrites = s.pendingWrites
            ∧ f = readFrame h.motorId
                (match h.kind with | .status => s.params.addrStatus | .position => s.params.addrPosition))
        ∨ (∃ body, s.pendingReads = [] ∧ s.pendingWrites = body :: t.pendingWrites ∧ f = frameOf body))

/-- O41. Each register has its writers and no others (10_state.md R21, R26, R27, R28, R41, R46, R48): no command writes
CMD, ARG, CFG_INTERVAL, CFG_TIMEOUT or a parameter; CRC_REG only CRC.INIT and CRC.FEED; TIME_REF only UPDATE; the
Register Buffer only STAGE; the parser, the results and the counters only TICK and UPDATE; `pending_writes` only the
commands that queue a write, CANCEL, TICK and UPDATE; a flag of ERR only the instructions whose rule raises it, and
none clears one; the waiting bytes only a frame that arrives, TICK and UPDATE. -/
def Obligations.RegistersHaveTheirWriters : Prop :=
  ∀ (i : Instr) (s : State), ∃ t, exec i s = .next t
    ∧ t.params = s.params ∧ t.cmd = s.cmd ∧ t.args = s.args ∧ t.cfgInterval = s.cfgInterval
    ∧ t.cfgTimeout = s.cfgTimeout ∧ t.env.isOpen = s.env.isOpen ∧ t.env.reads = s.env.reads
    ∧ t.env.agenda = s.env.agenda
    ∧ (i ≠ .crcInit → i ≠ .crcFeed → t.crcReg = s.crcReg)
    ∧ (i ≠ .update → t.timeRef = s.timeRef)
    ∧ ((∀ k id, i ≠ stageOf k id) → t.rb = s.rb)
    ∧ (∀ b < 10, b ∉ mayRaise i → t.err.getLsbD b = s.err.getLsbD b)
    ∧ (∀ b, s.err.getLsbD b = true → t.err.getLsbD b = true)
    ∧ (queuesWrite i = false → i ≠ .cancel → i ≠ .tick → i ≠ .update → t.pendingWrites = s.pendingWrites)
    ∧ ((mapWord i).isSome = true → i ≠ .tick → i ≠ .update → t.env.rx = s.env.rx)
    ∧ (i ≠ .tick → i ≠ .update →
        t.parser = s.parser ∧ t.ready = s.ready ∧ t.results = s.results ∧ t.env.tx = s.env.tx
          ∧ t.cntCrcErr = s.cntCrcErr ∧ t.cntTimeout = s.cntTimeout ∧ t.cntUnsol = s.cntUnsol
          ∧ t.cntResolved = s.cntResolved ∧ t.cntTx = s.cntTx ∧ t.cntTick = s.cntTick
          ∧ ((∀ id, i ≠ .readStatus id ∧ i ≠ .readPosition id) → t.pendingReads = s.pendingReads))

/-- O42. Nothing clears a valid bit except reset (10_state.md R47). -/
def Obligations.ValidBitsStayUntilReset : Prop :=
  ∀ (s t : State) (m : Nat), step s = .next t → s.env.agenda.head? ≠ some .reset →
    ((s.result m).svalid = true → (t.result m).svalid = true)
      ∧ ((s.result m).pvalid = true → (t.result m).pvalid = true)

/-- O43. Nothing stops the block: every instruction and every step has a next state, and with no action to come
nothing changes. The spec says so of errors, of ticks and of a block left alone (60_exceptions.md R330, 43_scheduler.md
R265, 60_exceptions.md R353); that every instruction, the wire frames included, has a next state and that an empty
agenda leaves the state as it is are the model's choices (log entries 9, 2 and 3). -/
def Obligations.TheBlockNeverStops : Prop :=
  (∀ (i : Instr) (s : State), ∃ t, exec i s = .next t) ∧ (∀ s : State, ∃ t, step s = .next t)
    ∧ ∀ s : State, s.env.agenda = [] → step s = .next s

/-- O44. The write queue is a FIFO (20_memory.md R81): an instruction leaves it alone, appends one entry, removes
the head and transmits it, or is the CANCEL that removes one entry. -/
def Obligations.WriteQueueIsFifo : Prop :=
  ∀ (i : Instr) (s : State), ∃ t, exec i s = .next t ∧
    (t.pendingWrites = s.pendingWrites ∨ (∃ b, t.pendingWrites = s.pendingWrites ++ [b])
      ∨ (∃ b, s.pendingWrites = b :: t.pendingWrites ∧ t.env.tx = s.env.tx ++ [frameOf b])
      ∨ (i = .cancel ∧ t.pendingWrites =
          s.pendingWrites.take s.args.arg0.toNat ++ s.pendingWrites.drop (s.args.arg0.toNat + 1)))

/-! ## The host window -/

/-- O45. The result, flag and buffer windows of the register map and its reserved offsets, as the host reads them
(10_state.md R25, R37, R38, R40). -/
def Obligations.WindowReadsMotorRegisters : Prop :=
  ∀ s : State,
    (∀ m < 64, s.hostRead (BitVec.ofNat 12 (0x020 + m)) =
        (if 1 ≤ m ∧ m ≤ s.params.nMotors then (s.results.getD (m - 1) MotorResult.reset).pos else 0#32) ∧
      s.hostRead (BitVec.ofNat 12 (0x060 + m)) =
        (if 1 ≤ m ∧ m ≤ s.params.nMotors then (s.results.getD (m - 1) MotorResult.reset).stat else 0#32) ∧
      s.hostRead (BitVec.ofNat 12 (0x0A0 + m)) = s.flagsView m ∧
      ∀ k, s.hostRead (BitVec.ofNat 12 (0x100 + 0x40 * kindIndex k + m)) =
        (if 1 ≤ m ∧ m ≤ s.params.nMotors then (s.rb.bank k).getD (m - 1) 0#32 else 0#32)) ∧
    (∀ off : BitVec 12, (0x016 ≤ off.toNat ∧ off.toNat < 0x020) ∨ (0x0E0 ≤ off.toNat ∧ off.toNat < 0x100)
        ∨ 0x280 ≤ off.toNat → s.hostRead off = 0#32)

/-- O46. The first 22 registers of the map, as the host reads them (10_state.md R25 to R28, R34 to R36). -/
def Obligations.WindowReadsLowRegisters : Prop :=
  ∀ s : State,
    (List.range 22).map (fun o => s.hostRead (BitVec.ofNat 12 o)) =
      [s.cmd, s.args.arg0, s.args.arg1, s.args.arg2, s.args.arg3, s.args.arg4, s.args.arg5,
        ((s.pendingReads.head?).map PendingRequest.timeoutTicks).getD 0#32,
        s.crcReg.setWidth 32, s.err.setWidth 32, s.cfgInterval, s.cfgTimeout, s.statusView, s.headView,
        ((s.pendingReads.head?).map PendingRequest.ticksWaited).getD 0#32,
        s.timeRef, s.cntCrcErr, s.cntTimeout, s.cntUnsol, s.cntResolved, s.cntTx, s.cntTick]

/-- O47. A write to a read-only or reserved offset is ignored and raises BADREG (60_exceptions.md R340). -/
def Obligations.ReadOnlyOffsetsRaiseBadReg : Prop :=
  ∀ (s : State) (off : BitVec 12) (v : Word),
    off.toNat ∉ [0x000, 0x001, 0x002, 0x003, 0x004, 0x005, 0x006, 0x009, 0x00A, 0x00B] →
    s.hostWrite off v = .next (flagged s 8)

/-- O48. Writes to ERR, CFG_INTERVAL and CFG_TIMEOUT (10_state.md R29, R30, R31): each flag with a 1 in the
word is cleared and no other; an interval of 0 is refused with BADCFG; any timeout is taken. Queued reads keep
theirs. -/
def Obligations.WindowWritesErrAndConfig : Prop :=
  ∀ (s : State) (v : Word),
    (∃ e : BitVec 10, s.hostWrite 0x009#12 v = .next { s with err := e }
      ∧ ∀ b < 10, e.getLsbD b = (s.err.getLsbD b && !v.getLsbD b)) ∧
    (v ≠ 0#32 → s.hostWrite 0x00A#12 v = .next { s with cfgInterval := v }) ∧
    s.hostWrite 0x00A#12 0#32 = .next (flagged s 6) ∧
    s.hostWrite 0x00B#12 v = .next { s with cfgTimeout := v }

/-- O49. Writes to the ARG registers: each takes the whole word, no other register changes (10_state.md R26). -/
def Obligations.WindowWritesArgs : Prop :=
  ∀ (s : State) (v : Word),
    s.hostWrite 0x001#12 v = .next { s with args := { s.args with arg0 := v } }
      ∧ s.hostWrite 0x002#12 v = .next { s with args := { s.args with arg1 := v } }
      ∧ s.hostWrite 0x003#12 v = .next { s with args := { s.args with arg2 := v } }
      ∧ s.hostWrite 0x004#12 v = .next { s with args := { s.args with arg3 := v } }
      ∧ s.hostWrite 0x005#12 v = .next { s with args := { s.args with arg4 := v } }
      ∧ s.hostWrite 0x006#12 v = .next { s with args := { s.args with arg5 := v } }

/-- O50. A host read has no side effect on the block (10_state.md R23); the model logs the value it returns (log
entry 8). -/
def Obligations.HostReadHasNoSideEffect : Prop :=
  ∀ (s : State) (off : BitVec 12) (rest : List Event), s.env.agenda = .hostRead off :: rest →
    step s = .next { s with env := { s.env with agenda := rest, reads := s.env.reads ++ [s.hostRead off] } }

/-- O51. STATUS, field by field (10_state.md R32). The counts fit their fields, as in every state of a run. -/
def Obligations.StatusFields : Prop :=
  (∀ s : State, s.pendingWrites.length ≤ 255 → s.pendingReads.length ≤ 255 →
    let v := s.hostRead 0x00C#12
    v.getLsbD 0 = s.env.isOpen
      ∧ v.getLsbD 1 = (!s.pendingWrites.isEmpty || !s.pendingReads.isEmpty)
      ∧ v.extractLsb' 2 2 = 0#2
      ∧ v.extractLsb' 4 3 = (match s.parser.state with
          | .address => 0#3 | .function => 1#3 | .size => 2#3 | .data => 3#3 | .crc => 4#3)
      ∧ v.getLsbD 7 = false
      ∧ (v.extractLsb' 8 8).toNat = s.pendingWrites.length
      ∧ (v.extractLsb' 16 8).toNat = s.pendingReads.length
      ∧ v.extractLsb' 24 8 = s.parser.idx) ∧
  ∀ p e, (State.resetWith p e).hostRead 0x00C#12 = if e.isOpen then 1#32 else 0#32

/-- O52. HEAD, field by field (10_state.md R33). -/
def Obligations.HeadFields : Prop :=
  ∀ s : State,
    (s.pendingReads = [] → s.hostRead 0x00D#12 = 0#32) ∧
    (∀ h rest, s.pendingReads = h :: rest →
      let v := s.hostRead 0x00D#12
      v.extractLsb' 0 8 = h.motorId ∧ v.getLsbD 8 = (h.kind == .position)
        ∧ v.getLsbD 9 = (h.state == .awaitingResponse) ∧ v.extractLsb' 10 21 = 0#21 ∧ v.getLsbD 31 = true)

/-- O53. FLAGS[m] and the status decode (10_state.md R39, 44_staging_and_results.md R295, R296). -/
def Obligations.FlagsFields : Prop :=
  ∀ (s : State) (m : Nat), 1 ≤ m → m ≤ s.params.nMotors → m < 64 →
    let v := s.hostRead (BitVec.ofNat 12 (0x0A0 + m))
    let r := s.results.getD (m - 1) MotorResult.reset
    v.getLsbD 0 = r.svalid ∧ v.getLsbD 1 = r.pvalid ∧ v.extractLsb' 2 6 = 0#6
      ∧ v.getLsbD 8 = r.stat.getLsbD 15 ∧ v.getLsbD 9 = r.stat.getLsbD 13 ∧ v.getLsbD 10 = r.stat.getLsbD 8
      ∧ v.getLsbD 11 = r.stat.getLsbD 7 ∧ v.getLsbD 12 = r.stat.getLsbD 5
      ∧ v.getLsbD 13 = (!r.stat.getLsbD 15 && !r.stat.getLsbD 13 && !r.stat.getLsbD 8 && !r.stat.getLsbD 7
          && r.stat.getLsbD 5)
      ∧ v.extractLsb' 14 18 = 0#18

/-- O54. FLAGS[0]: bit 13 says that every motor is ready, every other bit is 0; above N_MOTORS FLAGS reads 0
(10_state.md R39, 44_staging_and_results.md R297). -/
def Obligations.BroadcastReadyIsTheConjunction : Prop :=
  ∀ s : State, s.params.nMotors < 64 →
    ((s.hostRead 0x0A0#12).getLsbD 13 = true ↔
        ∀ m, 1 ≤ m → m ≤ s.params.nMotors →
          (s.hostRead (BitVec.ofNat 12 (0x0A0 + m))).getLsbD 13 = true)
    ∧ s.hostRead 0x0A0#12 &&& ~~~0x00002000#32 = 0#32
    ∧ ∀ m, s.params.nMotors < m → m < 64 → s.hostRead (BitVec.ofNat 12 (0x0A0 + m)) = 0#32

/-! ## Reset and the line -/

/-- O55. The reset values of 10_state.md R51, for every parameter value: each register as the host reads it, the
queues, the parser, and every motor's registers. -/
def Obligations.ResetValues : Prop :=
  ∀ (p : Params) (e : Env),
    let s := State.resetWith p e
    s.cmd = 0#32 ∧ s.args = ⟨0#32, 0#32, 0#32, 0#32, 0#32, 0#32⟩ ∧ s.crcReg = 0xFFFF#16 ∧ s.err = 0#10
      ∧ s.cfgInterval = 50#32 ∧ s.cfgTimeout = 3#32 ∧ s.timeRef = p.t0
      ∧ s.cntCrcErr = 0#32 ∧ s.cntTimeout = 0#32 ∧ s.cntUnsol = 0#32 ∧ s.cntResolved = 0#32 ∧ s.cntTx = 0#32
      ∧ s.cntTick = 0#32 ∧ s.pendingWrites = [] ∧ s.pendingReads = [] ∧ s.ready = []
      ∧ s.parser.state = .address ∧ s.parser.idx = 0#8 ∧ s.parser.acc = 0xFFFF#16 ∧ s.parser.station = 0#8
      ∧ s.parser.func = 0#8 ∧ s.parser.size = 0#8 ∧ s.parser.crcLo = 0#8 ∧ s.parser.data.length = 255
      ∧ (∀ b ∈ s.parser.data, b = 0#8)
      ∧ (∀ k m, s.rbValue k m = 0#32)
      ∧ (∀ m, s.result m = { pos := 0#32, stat := 0#32, svalid := false, pvalid := false })

/-- O56. Reset puts nothing on the wire and leaves the transport as it is (70_reset_and_hazards.md R371); the
parameters never change (10_state.md R20). The event is the model's own (log entry 10). -/
def Obligations.ResetLeavesTheTransport : Prop :=
  ∀ (s : State) (rest : List Event), s.env.agenda = .reset :: rest →
    step s = .next (State.resetWith s.params { s.env with agenda := rest })

/-- O57. The wire frames as instructions: the bytes of 30_encoding.md R101 to R103 join what the transport holds,
and nothing else changes. The model's choice (log entry 5). -/
def Obligations.WireFramesArrive : Prop :=
  ∀ (s : State) (st fn : Byte) (addr crc : Half) (p v a d c t : Word) (vals : List Word),
    let tail := [byteOf crc.toNat 0, byteOf crc.toNat 1]
    let arrived := fun bs : List Byte => { s with env := { s.env with rx := s.env.rx ++ bs } }
    exec (.wireReadReq st addr crc) s
        = .next (arrived ([st, 0x03#8] ++ bytes16 addr ++ [0x00#8, 0x02#8] ++ tail))
      ∧ exec (.wireReadResp st fn v crc) s = .next (arrived ([st, fn, 0x04#8] ++ bytes32 v ++ tail))
      ∧ exec (.wireWrite1 st addr v crc) s = .next (arrived (oneValueBody st addr v ++ tail))
      ∧ exec (.wireWriteDd st addr p v a d c t crc) s
          = .next (arrived (directDriveBody st addr p v a d c t ++ tail))
      ∧ exec (.wireWriteBatch addr vals crc) s = .next (arrived (batchBody addr vals ++ tail))

/-- O58. The transport opens and closes from outside, and that changes nothing of the block (10_state.md R49,
20_memory.md R76). The event is the model's own (log entry 2). -/
def Obligations.TransportOpensFromOutside : Prop :=
  ∀ (s : State) (b : Bool) (rest : List Event), s.env.agenda = .setOpen b :: rest →
    step s = .next { s with env := { s.env with isOpen := b, agenda := rest } }

/-! ## Several frames, and frames over several ticks -/

/-- O59. Several Responses in one tick (43_scheduler.md R255, R256, 70_reset_and_hazards.md R382, 20_memory.md
R81): valid frames one after another become Responses in the order of arrival, as many as the ready queue holds; and
an open tick, whatever waits on the line, resolves the reads it has in queue order with the Responses in their order,
one each. Each pair puts its value into its motor's register or raises BADLEN, and the Responses left over are
unsolicited. There is one result register set per motor, as in every state of a run. -/
def Obligations.ResponsesResolveReadsInOrder : Prop :=
  (∀ (s : State) (fs : List (Byte × Byte × List Byte)),
    s.parser.state = .address → s.parser.data.length = 255 → (∀ f ∈ fs, f.2.2.length ≤ 255) →
    s.ready.length + fs.length ≤ s.params.readyDepth →
    let t := s.feed (fs.flatMap fun f => responseFrame f.1 f.2.1 f.2.2)
    t.parser.state = .address ∧ t.err = s.err ∧ t.ready.take s.ready.length = s.ready
      ∧ (t.ready.drop s.ready.length).map (fun r => (r.stationId, r.function, r.byteCount, r.data))
          = fs.map fun f => (f.1, f.2.1, byteOf f.2.2.length 0, f.2.2)) ∧
  ∀ s : State, s.env.isOpen = true → s.results.length = s.params.nMotors →
    let responses := (s.feed s.env.rx).ready
    let reads := readsAfterLine s.pendingReads
    let pairs := reads.zip responses
    ∃ t, exec .tick s = .next t ∧ t.pendingReads = reads.drop responses.length
      ∧ t.cntResolved = s.cntResolved + BitVec.ofNat 32 pairs.length
      ∧ t.cntUnsol = s.cntUnsol + BitVec.ofNat 32 (responses.length - reads.length)
      ∧ (t.err.getLsbD 5 = true ↔ s.err.getLsbD 5 = true ∨ ∃ pair ∈ pairs, responseValue pair.2 = none)
      ∧ ∀ m, 1 ≤ m → m ≤ s.params.nMotors → t.result m = pairs.foldl (resolvedWith m) (s.result m)

/-- O60. A frame may span ticks (42_parser.md R210): over two open ticks the parser goes through the bytes of the
first and then those of the second as through one run of bytes, wherever the cut falls. So a read sent in the first
tick is resolved in the second by a valid 4-byte response of which any part short of the whole came in the first. -/
def Obligations.FramesMaySpanTicks : Prop :=
  (∀ (s : State) (later : List Byte), s.env.isOpen = true →
    ∃ t u, exec .tick s = .next t ∧ exec .tick { t with env := { t.env with rx := later } } = .next u
      ∧ u.parser = (s.feed (s.env.rx ++ later)).parser
      ∧ u.cntCrcErr = (s.feed (s.env.rx ++ later)).cntCrcErr
      ∧ u.err.getLsbD 3 = (s.feed (s.env.rx ++ later)).err.getLsbD 3) ∧
  ∀ (s : State) (h : PendingRequest) (rest : List PendingRequest) (st fn : Byte) (v : Word) (later : List Byte),
    Listening s → s.pendingReads = h :: rest → h.state = .created → h.ticksWaited + 1#32 < h.timeoutTicks →
    1 ≤ h.motorId.toNat → h.motorId.toNat ≤ s.params.nMotors →
    s.env.rx ++ later = responseFrame st fn (bytes32 v) → later ≠ [] →
    ∃ t u, exec .tick s = .next t ∧ exec .tick { t with env := { t.env with rx := later } } = .next u
      ∧ t.pendingReads = { h with state := .awaitingResponse } :: rest ∧ t.results = s.results
      ∧ u.pendingReads = rest ∧ u.err = s.err ∧ u.cntResolved = s.cntResolved + 1
      ∧ ∀ m, u.result m =
          if m = h.motorId.toNat then applied (s.result m) h.kind v else s.result m
end

