-- ==== Sys2Proof/Laws/Frame.lean ====
section
/-!
SUPPORT. Sys2Proof/Laws/Frame.lean: laws of the byte packing, of the CRC function and of the frame shapes
(Machine/Frame.lean), and of the fields of a command word (Decode.lean).
-/

namespace Sys2Proof.Machine

open Sys2Proof

/-! ## Bytes of a number and back -/

@[simp] theorem half16_hi8_lo8 (x : Half) : half16 (hi8 x) (lo8 x) = x := by
  apply BitVec.eq_of_getLsbD_eq
  intro i hi
  interval_cases i <;> simp [half16, hi8, lo8]

@[simp] theorem hi8_half16 (a b : Byte) : hi8 (half16 a b) = a := by
  apply BitVec.eq_of_getLsbD_eq
  intro i hi
  interval_cases i <;> simp [half16, hi8]

@[simp] theorem lo8_half16 (a b : Byte) : lo8 (half16 a b) = b := by
  apply BitVec.eq_of_getLsbD_eq
  intro i hi
  interval_cases i <;> simp [half16, lo8]

@[simp] theorem trailerCrc_lo8_hi8 (c : Half) : trailerCrc (lo8 c) (hi8 c) = c := by
  apply BitVec.eq_of_getLsbD_eq
  intro i hi
  interval_cases i <;> simp [trailerCrc, hi8, lo8]

@[simp] theorem lo8_trailerCrc (a b : Byte) : lo8 (trailerCrc a b) = a := by
  apply BitVec.eq_of_getLsbD_eq
  intro i hi
  interval_cases i <;> simp [trailerCrc, lo8]

@[simp] theorem hi8_trailerCrc (a b : Byte) : hi8 (trailerCrc a b) = b := by
  apply BitVec.eq_of_getLsbD_eq
  intro i hi
  interval_cases i <;> simp [trailerCrc, hi8]

@[simp] theorem trailer_trailerCrc (a b : Byte) : trailer (trailerCrc a b) = [a, b] := by
  simp [trailer]

@[simp] theorem be16_half16 (a b : Byte) : be16 (half16 a b) = [a, b] := by
  simp [be16]

@[simp] theorem be32_word32 (a b c d : Byte) : be32 (word32 a b c d) = [a, b, c, d] := by
  simp only [be32, word32, List.cons.injEq, and_true]
  refine ⟨?_, ?_, ?_, ?_⟩ <;>
  · apply BitVec.eq_of_getLsbD_eq
    intro i hi
    interval_cases i <;> simp

@[simp] theorem word32_be32 (v : Word) :
    word32 (v.extractLsb' 24 8) (v.extractLsb' 16 8) (v.extractLsb' 8 8) (v.extractLsb' 0 8) = v := by
  apply BitVec.eq_of_getLsbD_eq
  intro i hi
  interval_cases i <;> simp [word32]

/-! ## Lengths -/

@[simp] theorem be16_length (x : Half) : (be16 x).length = 2 := rfl

@[simp] theorem be32_length (v : Word) : (be32 v).length = 4 := rfl

@[simp] theorem trailer_length (c : Half) : (trailer c).length = 2 := rfl

@[simp] theorem payload_nil : payload [] = [] := rfl

@[simp] theorem payload_cons (v : Word) (vals : List Word) : payload (v :: vals) = be32 v ++ payload vals := rfl

@[simp] theorem payload_length (vals : List Word) : (payload vals).length = 4 * vals.length := by
  induction vals with
  | nil => rfl
  | cons v vals ih => simp [ih]; omega

@[simp] theorem bodyWrite_length (st : Byte) (addr : Half) (vals : List Word) :
    (bodyWrite st addr vals).length = 7 + 4 * vals.length := by
  simp [bodyWrite]; omega

@[simp] theorem bodyRead_length (st : Byte) (addr : Half) : (bodyRead st addr).length = 6 := rfl

@[simp] theorem bodyResponse_length (st fn : Byte) (v : Word) : (bodyResponse st fn v).length = 7 := rfl

@[simp] theorem withTrailer_length (body : List Byte) : (withTrailer body).length = body.length + 2 := by
  simp [withTrailer]

/-! ## The payload and the trailer of a write, taken apart -/

@[simp] theorem splitPayload_payload (vals : List Word) (crc : Half) :
    splitPayload (payload vals ++ trailer crc) = some (vals, crc) := by
  induction vals with
  | nil => simp [trailer, splitPayload]
  | cons v vals ih => simp [be32, splitPayload, ih]

theorem payload_of_splitPayload {bs : List Byte} {vals : List Word} {crc : Half}
    (h : splitPayload bs = some (vals, crc)) : bs = payload vals ++ trailer crc := by
  induction bs using splitPayload.induct generalizing vals crc with
  | case1 lo hi =>
    simp only [splitPayload, Option.some.injEq, Prod.mk.injEq] at h
    obtain ⟨rfl, rfl⟩ := h
    simp
  | case2 b0 b1 b2 b3 rest vs c hs ih =>
    simp only [splitPayload, hs, Option.some.injEq, Prod.mk.injEq] at h
    obtain ⟨rfl, rfl⟩ := h
    simp [ih hs]
  | case3 b0 b1 b2 b3 rest hs ih => simp [splitPayload, hs] at h
  | case4 bs h1 h2 => simp [splitPayload] at h

/-! ## The CRC -/

theorem crc16_append (m n : List Byte) : crc16 (m ++ n) = n.foldl crcStep (crc16 m) := by
  simp [crc16]

@[simp] theorem crc16_snoc (m : List Byte) (b : Byte) : crc16 (m ++ [b]) = crcStep (crc16 m) b := by
  simp [crc16_append]

theorem crc16_single (b : Byte) : crc16 [b] = crcStep crcInit b := rfl

/-! ## Fields of a command word -/

@[simp] theorem opField_commandWord (o : Opcode) (sel id : Byte) : opField (commandWord o sel id) = o.code := by
  apply BitVec.eq_of_getLsbD_eq
  intro i hi
  interval_cases i <;> simp [opField, commandWord]

@[simp] theorem selField_commandWord (o : Opcode) (sel id : Byte) : selField (commandWord o sel id) = sel := by
  apply BitVec.eq_of_getLsbD_eq
  intro i hi
  interval_cases i <;> simp [selField, commandWord]

@[simp] theorem idField_commandWord (o : Opcode) (sel id : Byte) : idField (commandWord o sel id) = id := by
  apply BitVec.eq_of_getLsbD_eq
  intro i hi
  interval_cases i <;> simp [idField, commandWord]

@[simp] theorem rsvField_commandWord (o : Opcode) (sel id : Byte) : rsvField (commandWord o sel id) = 0#8 := by
  apply BitVec.eq_of_getLsbD_eq
  intro i hi
  interval_cases i <;> simp [rsvField, commandWord]

/-- A word is its four fields; with RSV 0 it is the command word of the other three. -/
theorem commandWord_fields {w : Word} {o : Opcode} (ho : opField w = o.code) (hr : rsvField w = 0#8) :
    commandWord o (selField w) (idField w) = w := by
  have hlow : ∀ i < 8, w.getLsbD i = false := by
    intro i hi
    have := congrArg (fun x : Byte => x.getLsbD i) hr
    simpa [rsvField, hi] using this
  have hop : ∀ i < 8, o.code.getLsbD i = w.getLsbD (24 + i) := by
    intro i hi
    rw [← ho]
    simp [opField, hi]
  apply BitVec.eq_of_getLsbD_eq
  intro i hi
  interval_cases i <;> simp [commandWord, selField, idField, hlow, hop, -BitVec.getLsbD_eq_getElem]

@[simp] theorem Opcode.ofByte_code (o : Opcode) : Opcode.ofByte o.code = some o := by
  cases o <;> rfl

theorem Opcode.code_of_ofByte {b : Byte} {o : Opcode} (h : Opcode.ofByte b = some o) : b = o.code := by
  have := List.find?_some h
  exact (beq_iff_eq.mp this).symm

end Sys2Proof.Machine
end

