-- ==== Sys2Proof/Laws/Decode.lean ====
section
/-!
SUPPORT. Sys2Proof/Laws/Decode.lean: the decoder on words and frames the encoder writes, and what a word or a
frame that decodes looks like (Decode.lean).
-/

namespace Sys2Proof

open Sys2Proof.Machine

/-- The decoder on a word built from its fields: only SEL and ID are left to check. -/
theorem decodeCommand_commandWord (o : Opcode) (sel id : Byte) :
    decodeCommand (commandWord o sel id) =
      match o.instr sel id with
      | none => .error .badSel
      | some i => if o.idFixed && id != 0#8 then .error .badId else .ok i := by
  simp [decodeCommand]
  all_goals rfl

/-- A word decodes exactly when it is built from a legal OP, SEL and ID. -/
theorem decodeCommand_eq_ok {w : Word} {i : Instr} (h : decodeCommand w = .ok i) :
    ∃ (o : Opcode) (sel id : Byte), w = commandWord o sel id ∧ o.instr sel id = some i
      ∧ (o.idFixed = true → id = 0#8) := by
  unfold decodeCommand at h
  split at h
  · simp at h
  · next o ho =>
    split at h
    · simp at h
    · next hr =>
      split at h
      · simp at h
      · next j hj =>
        split at h
        · simp at h
        · next hid =>
          simp only [Except.ok.injEq] at h
          subst h
          refine ⟨o, selField w, idField w, ?_, hj, ?_⟩
          · exact (commandWord_fields (Opcode.code_of_ofByte ho) (not_not.mp hr)).symm
          · intro hf
            simpa [hf] using hid

/-- Two words are equal only if their three fields are. -/
theorem commandWord_inj {o o' : Opcode} {sel sel' id id' : Byte} (h : commandWord o sel id = commandWord o' sel' id') :
    o = o' ∧ sel = sel' ∧ id = id' := by
  refine ⟨?_, ?_, ?_⟩
  · have := congrArg (fun w => Opcode.ofByte (opField w)) h
    simpa using this
  · simpa using congrArg selField h
  · simpa using congrArg idField h

/-- The instruction of a legal OP, SEL and ID encodes to the word of these fields. -/
theorem encode_of_instr {o : Opcode} {sel id : Byte} {i : Instr} (h : o.instr sel id = some i)
    (hid : o.idFixed = true → id = 0#8) : encode i = .command (commandWord o sel id) := by
  unfold Opcode.instr at h
  split at h
  · next form hf =>
    simp only [Option.some.injEq] at h
    subst h
    rw [List.getElem?_eq_some_iff] at hf
    obtain ⟨hlt, hf⟩ := hf
    have hsel : ∀ k : Nat, sel.toNat = k → sel = BitVec.ofNat 8 k := by
      rintro k rfl; simp
    generalize hn : sel.toNat = n at hlt hf
    have := hsel n hn
    subst this
    cases o <;> simp only [Opcode.forms, List.length_cons, List.length_nil] at hlt <;>
      interval_cases n <;> simp only [Opcode.forms] at hf <;> subst hf <;>
      simp [encode, Opcode.idFixed] at hid ⊢ <;> try rw [hid]
  · simp at h

/-- A write frame, byte by byte up to its payload. -/
theorem bodyWrite_cons (st : Byte) (addr : Half) (vals : List Word) (crc : Half) :
    bodyWrite st addr vals ++ trailer crc =
      st :: 0x10#8 :: hi8 addr :: lo8 addr :: hi8 (BitVec.ofNat 16 (2 * vals.length))
        :: lo8 (BitVec.ofNat 16 (2 * vals.length)) :: BitVec.ofNat 8 (4 * vals.length)
        :: (payload vals ++ trailer crc) := by
  simp [bodyWrite, be16]

/-- The decoder on a write frame of 1 to 60 values. -/
theorem decodeWriteReq_bodyWrite (st : Byte) (addr : Half) (vals : List Word) (crc : Half) :
    1 ≤ vals.length → vals.length ≤ 60 →
    decodeWriteReq (bodyWrite st addr vals ++ trailer crc) =
      match vals with
      | [v] => .ok (.wireWrite1 st addr v crc)
      | [p, v, a, d, i, t] => .ok (.wireWriteDd st addr p v a d i t crc)
      | vals => if st ≠ 0#8 then .error .badStation else .ok (.wireWriteBatch addr vals crc) := by
  intro h1 h2
  rw [bodyWrite_cons]
  have hn : ¬ (vals.length < 1 ∨ 60 < vals.length) := by omega
  simp only [decodeWriteReq, splitPayload_payload, if_neg hn, half16_hi8_lo8]
  simp
  all_goals rfl

/-- Bytes on the line decode only to frames. -/
theorem decode_frame_cases {bs : List Byte} {i : Instr} (h : decode (.frame bs) = .ok i) :
    (∃ st addr crc, i = .wireReadReq st addr crc) ∨ (∃ st fn v crc, i = .wireReadResp st fn v crc)
      ∨ (∃ st addr v crc, i = .wireWrite1 st addr v crc)
      ∨ (∃ st addr p v a d c t crc, i = .wireWriteDd st addr p v a d c t crc)
      ∨ ∃ addr vals crc, i = .wireWriteBatch addr vals crc := by
  simp only [decode, decodeFrame] at h
  unfold decodeReadReq decodeReadResp decodeWriteReq at h
  split at h
  · repeat' split at h
    all_goals simp only [reduceCtorEq, Except.ok.injEq] at h
    exact .inl ⟨_, _, _, h.symm⟩
  · split at h
    · repeat' split at h
      all_goals simp only [reduceCtorEq, Except.ok.injEq] at h
      exact .inr (.inl ⟨_, _, _, _, h.symm⟩)
    · repeat' split at h
      all_goals simp only [reduceCtorEq, Except.ok.injEq] at h
      · exact .inr (.inr (.inl ⟨_, _, _, _, h.symm⟩))
      · exact .inr (.inr (.inr (.inl ⟨_, _, _, _, _, _, _, _, _, h.symm⟩)))
      · exact .inr (.inr (.inr (.inr ⟨_, _, _, h.symm⟩)))

end Sys2Proof
end

