-- ==== Sys2Proof/Laws/State.lean ====
section
/-!
SUPPORT. Sys2Proof/Laws/State.lean: one lemma per field per update of Machine/Ops.lean, true by rfl, so that no
proof unfolds a record update.
-/

namespace Sys2Proof.Machine

open Sys2Proof

variable (s : State)

/-! ### raise -/

/-- The mask of a flag has the flag's bit and no other (60_exceptions.md R331). -/
@[simp] theorem ErrFlag.getLsbD_mask (e : ErrFlag) (b : Nat) : e.mask.getLsbD b = decide (b = e.code) := by
  unfold ErrFlag.mask
  rw [BitVec.getLsbD_shiftLeft, BitVec.getLsbD_one]
  cases e <;> simp only [ErrFlag.code] <;> grind

@[simp] theorem State.raise_params (e : ErrFlag) : (s.raise e).params = s.params := rfl
@[simp] theorem State.raise_cmd (e : ErrFlag) : (s.raise e).cmd = s.cmd := rfl
@[simp] theorem State.raise_args (e : ErrFlag) : (s.raise e).args = s.args := rfl
@[simp] theorem State.raise_crcReg (e : ErrFlag) : (s.raise e).crcReg = s.crcReg := rfl
@[simp] theorem State.raise_err (e : ErrFlag) : (s.raise e).err = s.err ||| e.mask := rfl
@[simp] theorem State.raise_cfgInterval (e : ErrFlag) : (s.raise e).cfgInterval = s.cfgInterval := rfl
@[simp] theorem State.raise_cfgTimeout (e : ErrFlag) : (s.raise e).cfgTimeout = s.cfgTimeout := rfl
@[simp] theorem State.raise_timeRef (e : ErrFlag) : (s.raise e).timeRef = s.timeRef := rfl
@[simp] theorem State.raise_cntCrcErr (e : ErrFlag) : (s.raise e).cntCrcErr = s.cntCrcErr := rfl
@[simp] theorem State.raise_cntTimeout (e : ErrFlag) : (s.raise e).cntTimeout = s.cntTimeout := rfl
@[simp] theorem State.raise_cntUnsol (e : ErrFlag) : (s.raise e).cntUnsol = s.cntUnsol := rfl
@[simp] theorem State.raise_cntResolved (e : ErrFlag) : (s.raise e).cntResolved = s.cntResolved := rfl
@[simp] theorem State.raise_cntTx (e : ErrFlag) : (s.raise e).cntTx = s.cntTx := rfl
@[simp] theorem State.raise_cntTick (e : ErrFlag) : (s.raise e).cntTick = s.cntTick := rfl
@[simp] theorem State.raise_pendingWrites (e : ErrFlag) : (s.raise e).pendingWrites = s.pendingWrites := rfl
@[simp] theorem State.raise_pendingReads (e : ErrFlag) : (s.raise e).pendingReads = s.pendingReads := rfl
@[simp] theorem State.raise_parser (e : ErrFlag) : (s.raise e).parser = s.parser := rfl
@[simp] theorem State.raise_ready (e : ErrFlag) : (s.raise e).ready = s.ready := rfl
@[simp] theorem State.raise_rb (e : ErrFlag) : (s.raise e).rb = s.rb := rfl
@[simp] theorem State.raise_results (e : ErrFlag) : (s.raise e).results = s.results := rfl
@[simp] theorem State.raise_env (e : ErrFlag) : (s.raise e).env = s.env := rfl

/-! ### clearErr -/

@[simp] theorem State.clearErr_params (v : Word) : (s.clearErr v).params = s.params := rfl
@[simp] theorem State.clearErr_cmd (v : Word) : (s.clearErr v).cmd = s.cmd := rfl
@[simp] theorem State.clearErr_args (v : Word) : (s.clearErr v).args = s.args := rfl
@[simp] theorem State.clearErr_crcReg (v : Word) : (s.clearErr v).crcReg = s.crcReg := rfl
@[simp] theorem State.clearErr_err (v : Word) : (s.clearErr v).err = s.err &&& ~~~(v.extractLsb' 0 10) := rfl
@[simp] theorem State.clearErr_cfgInterval (v : Word) : (s.clearErr v).cfgInterval = s.cfgInterval := rfl
@[simp] theorem State.clearErr_cfgTimeout (v : Word) : (s.clearErr v).cfgTimeout = s.cfgTimeout := rfl
@[simp] theorem State.clearErr_timeRef (v : Word) : (s.clearErr v).timeRef = s.timeRef := rfl
@[simp] theorem State.clearErr_cntCrcErr (v : Word) : (s.clearErr v).cntCrcErr = s.cntCrcErr := rfl
@[simp] theorem State.clearErr_cntTimeout (v : Word) : (s.clearErr v).cntTimeout = s.cntTimeout := rfl
@[simp] theorem State.clearErr_cntUnsol (v : Word) : (s.clearErr v).cntUnsol = s.cntUnsol := rfl
@[simp] theorem State.clearErr_cntResolved (v : Word) : (s.clearErr v).cntResolved = s.cntResolved := rfl
@[simp] theorem State.clearErr_cntTx (v : Word) : (s.clearErr v).cntTx = s.cntTx := rfl
@[simp] theorem State.clearErr_cntTick (v : Word) : (s.clearErr v).cntTick = s.cntTick := rfl
@[simp] theorem State.clearErr_pendingWrites (v : Word) : (s.clearErr v).pendingWrites = s.pendingWrites := rfl
@[simp] theorem State.clearErr_pendingReads (v : Word) : (s.clearErr v).pendingReads = s.pendingReads := rfl
@[simp] theorem State.clearErr_parser (v : Word) : (s.clearErr v).parser = s.parser := rfl
@[simp] theorem State.clearErr_ready (v : Word) : (s.clearErr v).ready = s.ready := rfl
@[simp] theorem State.clearErr_rb (v : Word) : (s.clearErr v).rb = s.rb := rfl
@[simp] theorem State.clearErr_results (v : Word) : (s.clearErr v).results = s.results := rfl
@[simp] theorem State.clearErr_env (v : Word) : (s.clearErr v).env = s.env := rfl

/-! ### setCmd -/

@[simp] theorem State.setCmd_params (w : Word) : (s.setCmd w).params = s.params := rfl
@[simp] theorem State.setCmd_cmd (w : Word) : (s.setCmd w).cmd = w := rfl
@[simp] theorem State.setCmd_args (w : Word) : (s.setCmd w).args = s.args := rfl
@[simp] theorem State.setCmd_crcReg (w : Word) : (s.setCmd w).crcReg = s.crcReg := rfl
@[simp] theorem State.setCmd_err (w : Word) : (s.setCmd w).err = s.err := rfl
@[simp] theorem State.setCmd_cfgInterval (w : Word) : (s.setCmd w).cfgInterval = s.cfgInterval := rfl
@[simp] theorem State.setCmd_cfgTimeout (w : Word) : (s.setCmd w).cfgTimeout = s.cfgTimeout := rfl
@[simp] theorem State.setCmd_timeRef (w : Word) : (s.setCmd w).timeRef = s.timeRef := rfl
@[simp] theorem State.setCmd_cntCrcErr (w : Word) : (s.setCmd w).cntCrcErr = s.cntCrcErr := rfl
@[simp] theorem State.setCmd_cntTimeout (w : Word) : (s.setCmd w).cntTimeout = s.cntTimeout := rfl
@[simp] theorem State.setCmd_cntUnsol (w : Word) : (s.setCmd w).cntUnsol = s.cntUnsol := rfl
@[simp] theorem State.setCmd_cntResolved (w : Word) : (s.setCmd w).cntResolved = s.cntResolved := rfl
@[simp] theorem State.setCmd_cntTx (w : Word) : (s.setCmd w).cntTx = s.cntTx := rfl
@[simp] theorem State.setCmd_cntTick (w : Word) : (s.setCmd w).cntTick = s.cntTick := rfl
@[simp] theorem State.setCmd_pendingWrites (w : Word) : (s.setCmd w).pendingWrites = s.pendingWrites := rfl
@[simp] theorem State.setCmd_pendingReads (w : Word) : (s.setCmd w).pendingReads = s.pendingReads := rfl
@[simp] theorem State.setCmd_parser (w : Word) : (s.setCmd w).parser = s.parser := rfl
@[simp] theorem State.setCmd_ready (w : Word) : (s.setCmd w).ready = s.ready := rfl
@[simp] theorem State.setCmd_rb (w : Word) : (s.setCmd w).rb = s.rb := rfl
@[simp] theorem State.setCmd_results (w : Word) : (s.setCmd w).results = s.results := rfl
@[simp] theorem State.setCmd_env (w : Word) : (s.setCmd w).env = s.env := rfl

/-! ### setArg -/

@[simp] theorem State.setArg_params (k : Fin 6) (v : Word) : (s.setArg k v).params = s.params := rfl
@[simp] theorem State.setArg_cmd (k : Fin 6) (v : Word) : (s.setArg k v).cmd = s.cmd := rfl
@[simp] theorem State.setArg_args (k : Fin 6) (v : Word) : (s.setArg k v).args = s.args.set k v := rfl
@[simp] theorem State.setArg_crcReg (k : Fin 6) (v : Word) : (s.setArg k v).crcReg = s.crcReg := rfl
@[simp] theorem State.setArg_err (k : Fin 6) (v : Word) : (s.setArg k v).err = s.err := rfl
@[simp] theorem State.setArg_cfgInterval (k : Fin 6) (v : Word) : (s.setArg k v).cfgInterval = s.cfgInterval := rfl
@[simp] theorem State.setArg_cfgTimeout (k : Fin 6) (v : Word) : (s.setArg k v).cfgTimeout = s.cfgTimeout := rfl
@[simp] theorem State.setArg_timeRef (k : Fin 6) (v : Word) : (s.setArg k v).timeRef = s.timeRef := rfl
@[simp] theorem State.setArg_cntCrcErr (k : Fin 6) (v : Word) : (s.setArg k v).cntCrcErr = s.cntCrcErr := rfl
@[simp] theorem State.setArg_cntTimeout (k : Fin 6) (v : Word) : (s.setArg k v).cntTimeout = s.cntTimeout := rfl
@[simp] theorem State.setArg_cntUnsol (k : Fin 6) (v : Word) : (s.setArg k v).cntUnsol = s.cntUnsol := rfl
@[simp] theorem State.setArg_cntResolved (k : Fin 6) (v : Word) : (s.setArg k v).cntResolved = s.cntResolved := rfl
@[simp] theorem State.setArg_cntTx (k : Fin 6) (v : Word) : (s.setArg k v).cntTx = s.cntTx := rfl
@[simp] theorem State.setArg_cntTick (k : Fin 6) (v : Word) : (s.setArg k v).cntTick = s.cntTick := rfl
@[simp] theorem State.setArg_pendingWrites (k : Fin 6) (v : Word) : (s.setArg k v).pendingWrites = s.pendingWrites := rfl
@[simp] theorem State.setArg_pendingReads (k : Fin 6) (v : Word) : (s.setArg k v).pendingReads = s.pendingReads := rfl
@[simp] theorem State.setArg_parser (k : Fin 6) (v : Word) : (s.setArg k v).parser = s.parser := rfl
@[simp] theorem State.setArg_ready (k : Fin 6) (v : Word) : (s.setArg k v).ready = s.ready := rfl
@[simp] theorem State.setArg_rb (k : Fin 6) (v : Word) : (s.setArg k v).rb = s.rb := rfl
@[simp] theorem State.setArg_results (k : Fin 6) (v : Word) : (s.setArg k v).results = s.results := rfl
@[simp] theorem State.setArg_env (k : Fin 6) (v : Word) : (s.setArg k v).env = s.env := rfl

/-! ### setCrcReg -/

@[simp] theorem State.setCrcReg_params (c : Half) : (s.setCrcReg c).params = s.params := rfl
@[simp] theorem State.setCrcReg_cmd (c : Half) : (s.setCrcReg c).cmd = s.cmd := rfl
@[simp] theorem State.setCrcReg_args (c : Half) : (s.setCrcReg c).args = s.args := rfl
@[simp] theorem State.setCrcReg_crcReg (c : Half) : (s.setCrcReg c).crcReg = c := rfl
@[simp] theorem State.setCrcReg_err (c : Half) : (s.setCrcReg c).err = s.err := rfl
@[simp] theorem State.setCrcReg_cfgInterval (c : Half) : (s.setCrcReg c).cfgInterval = s.cfgInterval := rfl
@[simp] theorem State.setCrcReg_cfgTimeout (c : Half) : (s.setCrcReg c).cfgTimeout = s.cfgTimeout := rfl
@[simp] theorem State.setCrcReg_timeRef (c : Half) : (s.setCrcReg c).timeRef = s.timeRef := rfl
@[simp] theorem State.setCrcReg_cntCrcErr (c : Half) : (s.setCrcReg c).cntCrcErr = s.cntCrcErr := rfl
@[simp] theorem State.setCrcReg_cntTimeout (c : Half) : (s.setCrcReg c).cntTimeout = s.cntTimeout := rfl
@[simp] theorem State.setCrcReg_cntUnsol (c : Half) : (s.setCrcReg c).cntUnsol = s.cntUnsol := rfl
@[simp] theorem State.setCrcReg_cntResolved (c : Half) : (s.setCrcReg c).cntResolved = s.cntResolved := rfl
@[simp] theorem State.setCrcReg_cntTx (c : Half) : (s.setCrcReg c).cntTx = s.cntTx := rfl
@[simp] theorem State.setCrcReg_cntTick (c : Half) : (s.setCrcReg c).cntTick = s.cntTick := rfl
@[simp] theorem State.setCrcReg_pendingWrites (c : Half) : (s.setCrcReg c).pendingWrites = s.pendingWrites := rfl
@[simp] theorem State.setCrcReg_pendingReads (c : Half) : (s.setCrcReg c).pendingReads = s.pendingReads := rfl
@[simp] theorem State.setCrcReg_parser (c : Half) : (s.setCrcReg c).parser = s.parser := rfl
@[simp] theorem State.setCrcReg_ready (c : Half) : (s.setCrcReg c).ready = s.ready := rfl
@[simp] theorem State.setCrcReg_rb (c : Half) : (s.setCrcReg c).rb = s.rb := rfl
@[simp] theorem State.setCrcReg_results (c : Half) : (s.setCrcReg c).results = s.results := rfl
@[simp] theorem State.setCrcReg_env (c : Half) : (s.setCrcReg c).env = s.env := rfl

/-! ### setInterval -/

@[simp] theorem State.setInterval_params (v : Word) : (s.setInterval v).params = s.params := rfl
@[simp] theorem State.setInterval_cmd (v : Word) : (s.setInterval v).cmd = s.cmd := rfl
@[simp] theorem State.setInterval_args (v : Word) : (s.setInterval v).args = s.args := rfl
@[simp] theorem State.setInterval_crcReg (v : Word) : (s.setInterval v).crcReg = s.crcReg := rfl
@[simp] theorem State.setInterval_err (v : Word) : (s.setInterval v).err = s.err := rfl
@[simp] theorem State.setInterval_cfgInterval (v : Word) : (s.setInterval v).cfgInterval = v := rfl
@[simp] theorem State.setInterval_cfgTimeout (v : Word) : (s.setInterval v).cfgTimeout = s.cfgTimeout := rfl
@[simp] theorem State.setInterval_timeRef (v : Word) : (s.setInterval v).timeRef = s.timeRef := rfl
@[simp] theorem State.setInterval_cntCrcErr (v : Word) : (s.setInterval v).cntCrcErr = s.cntCrcErr := rfl
@[simp] theorem State.setInterval_cntTimeout (v : Word) : (s.setInterval v).cntTimeout = s.cntTimeout := rfl
@[simp] theorem State.setInterval_cntUnsol (v : Word) : (s.setInterval v).cntUnsol = s.cntUnsol := rfl
@[simp] theorem State.setInterval_cntResolved (v : Word) : (s.setInterval v).cntResolved = s.cntResolved := rfl
@[simp] theorem State.setInterval_cntTx (v : Word) : (s.setInterval v).cntTx = s.cntTx := rfl
@[simp] theorem State.setInterval_cntTick (v : Word) : (s.setInterval v).cntTick = s.cntTick := rfl
@[simp] theorem State.setInterval_pendingWrites (v : Word) : (s.setInterval v).pendingWrites = s.pendingWrites := rfl
@[simp] theorem State.setInterval_pendingReads (v : Word) : (s.setInterval v).pendingReads = s.pendingReads := rfl
@[simp] theorem State.setInterval_parser (v : Word) : (s.setInterval v).parser = s.parser := rfl
@[simp] theorem State.setInterval_ready (v : Word) : (s.setInterval v).ready = s.ready := rfl
@[simp] theorem State.setInterval_rb (v : Word) : (s.setInterval v).rb = s.rb := rfl
@[simp] theorem State.setInterval_results (v : Word) : (s.setInterval v).results = s.results := rfl
@[simp] theorem State.setInterval_env (v : Word) : (s.setInterval v).env = s.env := rfl

/-! ### setTimeout -/

@[simp] theorem State.setTimeout_params (v : Word) : (s.setTimeout v).params = s.params := rfl
@[simp] theorem State.setTimeout_cmd (v : Word) : (s.setTimeout v).cmd = s.cmd := rfl
@[simp] theorem State.setTimeout_args (v : Word) : (s.setTimeout v).args = s.args := rfl
@[simp] theorem State.setTimeout_crcReg (v : Word) : (s.setTimeout v).crcReg = s.crcReg := rfl
@[simp] theorem State.setTimeout_err (v : Word) : (s.setTimeout v).err = s.err := rfl
@[simp] theorem State.setTimeout_cfgInterval (v : Word) : (s.setTimeout v).cfgInterval = s.cfgInterval := rfl
@[simp] theorem State.setTimeout_cfgTimeout (v : Word) : (s.setTimeout v).cfgTimeout = v := rfl
@[simp] theorem State.setTimeout_timeRef (v : Word) : (s.setTimeout v).timeRef = s.timeRef := rfl
@[simp] theorem State.setTimeout_cntCrcErr (v : Word) : (s.setTimeout v).cntCrcErr = s.cntCrcErr := rfl
@[simp] theorem State.setTimeout_cntTimeout (v : Word) : (s.setTimeout v).cntTimeout = s.cntTimeout := rfl
@[simp] theorem State.setTimeout_cntUnsol (v : Word) : (s.setTimeout v).cntUnsol = s.cntUnsol := rfl
@[simp] theorem State.setTimeout_cntResolved (v : Word) : (s.setTimeout v).cntResolved = s.cntResolved := rfl
@[simp] theorem State.setTimeout_cntTx (v : Word) : (s.setTimeout v).cntTx = s.cntTx := rfl
@[simp] theorem State.setTimeout_cntTick (v : Word) : (s.setTimeout v).cntTick = s.cntTick := rfl
@[simp] theorem State.setTimeout_pendingWrites (v : Word) : (s.setTimeout v).pendingWrites = s.pendingWrites := rfl
@[simp] theorem State.setTimeout_pendingReads (v : Word) : (s.setTimeout v).pendingReads = s.pendingReads := rfl
@[simp] theorem State.setTimeout_parser (v : Word) : (s.setTimeout v).parser = s.parser := rfl
@[simp] theorem State.setTimeout_ready (v : Word) : (s.setTimeout v).ready = s.ready := rfl
@[simp] theorem State.setTimeout_rb (v : Word) : (s.setTimeout v).rb = s.rb := rfl
@[simp] theorem State.setTimeout_results (v : Word) : (s.setTimeout v).results = s.results := rfl
@[simp] theorem State.setTimeout_env (v : Word) : (s.setTimeout v).env = s.env := rfl

/-! ### setTimeRef -/

@[simp] theorem State.setTimeRef_params (v : Word) : (s.setTimeRef v).params = s.params := rfl
@[simp] theorem State.setTimeRef_cmd (v : Word) : (s.setTimeRef v).cmd = s.cmd := rfl
@[simp] theorem State.setTimeRef_args (v : Word) : (s.setTimeRef v).args = s.args := rfl
@[simp] theorem State.setTimeRef_crcReg (v : Word) : (s.setTimeRef v).crcReg = s.crcReg := rfl
@[simp] theorem State.setTimeRef_err (v : Word) : (s.setTimeRef v).err = s.err := rfl
@[simp] theorem State.setTimeRef_cfgInterval (v : Word) : (s.setTimeRef v).cfgInterval = s.cfgInterval := rfl
@[simp] theorem State.setTimeRef_cfgTimeout (v : Word) : (s.setTimeRef v).cfgTimeout = s.cfgTimeout := rfl
@[simp] theorem State.setTimeRef_timeRef (v : Word) : (s.setTimeRef v).timeRef = v := rfl
@[simp] theorem State.setTimeRef_cntCrcErr (v : Word) : (s.setTimeRef v).cntCrcErr = s.cntCrcErr := rfl
@[simp] theorem State.setTimeRef_cntTimeout (v : Word) : (s.setTimeRef v).cntTimeout = s.cntTimeout := rfl
@[simp] theorem State.setTimeRef_cntUnsol (v : Word) : (s.setTimeRef v).cntUnsol = s.cntUnsol := rfl
@[simp] theorem State.setTimeRef_cntResolved (v : Word) : (s.setTimeRef v).cntResolved = s.cntResolved := rfl
@[simp] theorem State.setTimeRef_cntTx (v : Word) : (s.setTimeRef v).cntTx = s.cntTx := rfl
@[simp] theorem State.setTimeRef_cntTick (v : Word) : (s.setTimeRef v).cntTick = s.cntTick := rfl
@[simp] theorem State.setTimeRef_pendingWrites (v : Word) : (s.setTimeRef v).pendingWrites = s.pendingWrites := rfl
@[simp] theorem State.setTimeRef_pendingReads (v : Word) : (s.setTimeRef v).pendingReads = s.pendingReads := rfl
@[simp] theorem State.setTimeRef_parser (v : Word) : (s.setTimeRef v).parser = s.parser := rfl
@[simp] theorem State.setTimeRef_ready (v : Word) : (s.setTimeRef v).ready = s.ready := rfl
@[simp] theorem State.setTimeRef_rb (v : Word) : (s.setTimeRef v).rb = s.rb := rfl
@[simp] theorem State.setTimeRef_results (v : Word) : (s.setTimeRef v).results = s.results := rfl
@[simp] theorem State.setTimeRef_env (v : Word) : (s.setTimeRef v).env = s.env := rfl

/-! ### countCrcErr -/

@[simp] theorem State.countCrcErr_params : s.countCrcErr.params = s.params := rfl
@[simp] theorem State.countCrcErr_cmd : s.countCrcErr.cmd = s.cmd := rfl
@[simp] theorem State.countCrcErr_args : s.countCrcErr.args = s.args := rfl
@[simp] theorem State.countCrcErr_crcReg : s.countCrcErr.crcReg = s.crcReg := rfl
@[simp] theorem State.countCrcErr_err : s.countCrcErr.err = s.err := rfl
@[simp] theorem State.countCrcErr_cfgInterval : s.countCrcErr.cfgInterval = s.cfgInterval := rfl
@[simp] theorem State.countCrcErr_cfgTimeout : s.countCrcErr.cfgTimeout = s.cfgTimeout := rfl
@[simp] theorem State.countCrcErr_timeRef : s.countCrcErr.timeRef = s.timeRef := rfl
@[simp] theorem State.countCrcErr_cntCrcErr : s.countCrcErr.cntCrcErr = s.cntCrcErr + 1 := rfl
@[simp] theorem State.countCrcErr_cntTimeout : s.countCrcErr.cntTimeout = s.cntTimeout := rfl
@[simp] theorem State.countCrcErr_cntUnsol : s.countCrcErr.cntUnsol = s.cntUnsol := rfl
@[simp] theorem State.countCrcErr_cntResolved : s.countCrcErr.cntResolved = s.cntResolved := rfl
@[simp] theorem State.countCrcErr_cntTx : s.countCrcErr.cntTx = s.cntTx := rfl
@[simp] theorem State.countCrcErr_cntTick : s.countCrcErr.cntTick = s.cntTick := rfl
@[simp] theorem State.countCrcErr_pendingWrites : s.countCrcErr.pendingWrites = s.pendingWrites := rfl
@[simp] theorem State.countCrcErr_pendingReads : s.countCrcErr.pendingReads = s.pendingReads := rfl
@[simp] theorem State.countCrcErr_parser : s.countCrcErr.parser = s.parser := rfl
@[simp] theorem State.countCrcErr_ready : s.countCrcErr.ready = s.ready := rfl
@[simp] theorem State.countCrcErr_rb : s.countCrcErr.rb = s.rb := rfl
@[simp] theorem State.countCrcErr_results : s.countCrcErr.results = s.results := rfl
@[simp] theorem State.countCrcErr_env : s.countCrcErr.env = s.env := rfl

/-! ### countTimeout -/

@[simp] theorem State.countTimeout_params : s.countTimeout.params = s.params := rfl
@[simp] theorem State.countTimeout_cmd : s.countTimeout.cmd = s.cmd := rfl
@[simp] theorem State.countTimeout_args : s.countTimeout.args = s.args := rfl
@[simp] theorem State.countTimeout_crcReg : s.countTimeout.crcReg = s.crcReg := rfl
@[simp] theorem State.countTimeout_err : s.countTimeout.err = s.err := rfl
@[simp] theorem State.countTimeout_cfgInterval : s.countTimeout.cfgInterval = s.cfgInterval := rfl
@[simp] theorem State.countTimeout_cfgTimeout : s.countTimeout.cfgTimeout = s.cfgTimeout := rfl
@[simp] theorem State.countTimeout_timeRef : s.countTimeout.timeRef = s.timeRef := rfl
@[simp] theorem State.countTimeout_cntCrcErr : s.countTimeout.cntCrcErr = s.cntCrcErr := rfl
@[simp] theorem State.countTimeout_cntTimeout : s.countTimeout.cntTimeout = s.cntTimeout + 1 := rfl
@[simp] theorem State.countTimeout_cntUnsol : s.countTimeout.cntUnsol = s.cntUnsol := rfl
@[simp] theorem State.countTimeout_cntResolved : s.countTimeout.cntResolved = s.cntResolved := rfl
@[simp] theorem State.countTimeout_cntTx : s.countTimeout.cntTx = s.cntTx := rfl
@[simp] theorem State.countTimeout_cntTick : s.countTimeout.cntTick = s.cntTick := rfl
@[simp] theorem State.countTimeout_pendingWrites : s.countTimeout.pendingWrites = s.pendingWrites := rfl
@[simp] theorem State.countTimeout_pendingReads : s.countTimeout.pendingReads = s.pendingReads := rfl
@[simp] theorem State.countTimeout_parser : s.countTimeout.parser = s.parser := rfl
@[simp] theorem State.countTimeout_ready : s.countTimeout.ready = s.ready := rfl
@[simp] theorem State.countTimeout_rb : s.countTimeout.rb = s.rb := rfl
@[simp] theorem State.countTimeout_results : s.countTimeout.results = s.results := rfl
@[simp] theorem State.countTimeout_env : s.countTimeout.env = s.env := rfl

/-! ### countUnsol -/

@[simp] theorem State.countUnsol_params : s.countUnsol.params = s.params := rfl
@[simp] theorem State.countUnsol_cmd : s.countUnsol.cmd = s.cmd := rfl
@[simp] theorem State.countUnsol_args : s.countUnsol.args = s.args := rfl
@[simp] theorem State.countUnsol_crcReg : s.countUnsol.crcReg = s.crcReg := rfl
@[simp] theorem State.countUnsol_err : s.countUnsol.err = s.err := rfl
@[simp] theorem State.countUnsol_cfgInterval : s.countUnsol.cfgInterval = s.cfgInterval := rfl
@[simp] theorem State.countUnsol_cfgTimeout : s.countUnsol.cfgTimeout = s.cfgTimeout := rfl
@[simp] theorem State.countUnsol_timeRef : s.countUnsol.timeRef = s.timeRef := rfl
@[simp] theorem State.countUnsol_cntCrcErr : s.countUnsol.cntCrcErr = s.cntCrcErr := rfl
@[simp] theorem State.countUnsol_cntTimeout : s.countUnsol.cntTimeout = s.cntTimeout := rfl
@[simp] theorem State.countUnsol_cntUnsol : s.countUnsol.cntUnsol = s.cntUnsol + 1 := rfl
@[simp] theorem State.countUnsol_cntResolved : s.countUnsol.cntResolved = s.cntResolved := rfl
@[simp] theorem State.countUnsol_cntTx : s.countUnsol.cntTx = s.cntTx := rfl
@[simp] theorem State.countUnsol_cntTick : s.countUnsol.cntTick = s.cntTick := rfl
@[simp] theorem State.countUnsol_pendingWrites : s.countUnsol.pendingWrites = s.pendingWrites := rfl
@[simp] theorem State.countUnsol_pendingReads : s.countUnsol.pendingReads = s.pendingReads := rfl
@[simp] theorem State.countUnsol_parser : s.countUnsol.parser = s.parser := rfl
@[simp] theorem State.countUnsol_ready : s.countUnsol.ready = s.ready := rfl
@[simp] theorem State.countUnsol_rb : s.countUnsol.rb = s.rb := rfl
@[simp] theorem State.countUnsol_results : s.countUnsol.results = s.results := rfl
@[simp] theorem State.countUnsol_env : s.countUnsol.env = s.env := rfl

/-! ### countResolved -/

@[simp] theorem State.countResolved_params : s.countResolved.params = s.params := rfl
@[simp] theorem State.countResolved_cmd : s.countResolved.cmd = s.cmd := rfl
@[simp] theorem State.countResolved_args : s.countResolved.args = s.args := rfl
@[simp] theorem State.countResolved_crcReg : s.countResolved.crcReg = s.crcReg := rfl
@[simp] theorem State.countResolved_err : s.countResolved.err = s.err := rfl
@[simp] theorem State.countResolved_cfgInterval : s.countResolved.cfgInterval = s.cfgInterval := rfl
@[simp] theorem State.countResolved_cfgTimeout : s.countResolved.cfgTimeout = s.cfgTimeout := rfl
@[simp] theorem State.countResolved_timeRef : s.countResolved.timeRef = s.timeRef := rfl
@[simp] theorem State.countResolved_cntCrcErr : s.countResolved.cntCrcErr = s.cntCrcErr := rfl
@[simp] theorem State.countResolved_cntTimeout : s.countResolved.cntTimeout = s.cntTimeout := rfl
@[simp] theorem State.countResolved_cntUnsol : s.countResolved.cntUnsol = s.cntUnsol := rfl
@[simp] theorem State.countResolved_cntResolved : s.countResolved.cntResolved = s.cntResolved + 1 := rfl
@[simp] theorem State.countResolved_cntTx : s.countResolved.cntTx = s.cntTx := rfl
@[simp] theorem State.countResolved_cntTick : s.countResolved.cntTick = s.cntTick := rfl
@[simp] theorem State.countResolved_pendingWrites : s.countResolved.pendingWrites = s.pendingWrites := rfl
@[simp] theorem State.countResolved_pendingReads : s.countResolved.pendingReads = s.pendingReads := rfl
@[simp] theorem State.countResolved_parser : s.countResolved.parser = s.parser := rfl
@[simp] theorem State.countResolved_ready : s.countResolved.ready = s.ready := rfl
@[simp] theorem State.countResolved_rb : s.countResolved.rb = s.rb := rfl
@[simp] theorem State.countResolved_results : s.countResolved.results = s.results := rfl
@[simp] theorem State.countResolved_env : s.countResolved.env = s.env := rfl

/-! ### countTx -/

@[simp] theorem State.countTx_params : s.countTx.params = s.params := rfl
@[simp] theorem State.countTx_cmd : s.countTx.cmd = s.cmd := rfl
@[simp] theorem State.countTx_args : s.countTx.args = s.args := rfl
@[simp] theorem State.countTx_crcReg : s.countTx.crcReg = s.crcReg := rfl
@[simp] theorem State.countTx_err : s.countTx.err = s.err := rfl
@[simp] theorem State.countTx_cfgInterval : s.countTx.cfgInterval = s.cfgInterval := rfl
@[simp] theorem State.countTx_cfgTimeout : s.countTx.cfgTimeout = s.cfgTimeout := rfl
@[simp] theorem State.countTx_timeRef : s.countTx.timeRef = s.timeRef := rfl
@[simp] theorem State.countTx_cntCrcErr : s.countTx.cntCrcErr = s.cntCrcErr := rfl
@[simp] theorem State.countTx_cntTimeout : s.countTx.cntTimeout = s.cntTimeout := rfl
@[simp] theorem State.countTx_cntUnsol : s.countTx.cntUnsol = s.cntUnsol := rfl
@[simp] theorem State.countTx_cntResolved : s.countTx.cntResolved = s.cntResolved := rfl
@[simp] theorem State.countTx_cntTx : s.countTx.cntTx = s.cntTx + 1 := rfl
@[simp] theorem State.countTx_cntTick : s.countTx.cntTick = s.cntTick := rfl
@[simp] theorem State.countTx_pendingWrites : s.countTx.pendingWrites = s.pendingWrites := rfl
@[simp] theorem State.countTx_pendingReads : s.countTx.pendingReads = s.pendingReads := rfl
@[simp] theorem State.countTx_parser : s.countTx.parser = s.parser := rfl
@[simp] theorem State.countTx_ready : s.countTx.ready = s.ready := rfl
@[simp] theorem State.countTx_rb : s.countTx.rb = s.rb := rfl
@[simp] theorem State.countTx_results : s.countTx.results = s.results := rfl
@[simp] theorem State.countTx_env : s.countTx.env = s.env := rfl

/-! ### countTick -/

@[simp] theorem State.countTick_params : s.countTick.params = s.params := rfl
@[simp] theorem State.countTick_cmd : s.countTick.cmd = s.cmd := rfl
@[simp] theorem State.countTick_args : s.countTick.args = s.args := rfl
@[simp] theorem State.countTick_crcReg : s.countTick.crcReg = s.crcReg := rfl
@[simp] theorem State.countTick_err : s.countTick.err = s.err := rfl
@[simp] theorem State.countTick_cfgInterval : s.countTick.cfgInterval = s.cfgInterval := rfl
@[simp] theorem State.countTick_cfgTimeout : s.countTick.cfgTimeout = s.cfgTimeout := rfl
@[simp] theorem State.countTick_timeRef : s.countTick.timeRef = s.timeRef := rfl
@[simp] theorem State.countTick_cntCrcErr : s.countTick.cntCrcErr = s.cntCrcErr := rfl
@[simp] theorem State.countTick_cntTimeout : s.countTick.cntTimeout = s.cntTimeout := rfl
@[simp] theorem State.countTick_cntUnsol : s.countTick.cntUnsol = s.cntUnsol := rfl
@[simp] theorem State.countTick_cntResolved : s.countTick.cntResolved = s.cntResolved := rfl
@[simp] theorem State.countTick_cntTx : s.countTick.cntTx = s.cntTx := rfl
@[simp] theorem State.countTick_cntTick : s.countTick.cntTick = s.cntTick + 1 := rfl
@[simp] theorem State.countTick_pendingWrites : s.countTick.pendingWrites = s.pendingWrites := rfl
@[simp] theorem State.countTick_pendingReads : s.countTick.pendingReads = s.pendingReads := rfl
@[simp] theorem State.countTick_parser : s.countTick.parser = s.parser := rfl
@[simp] theorem State.countTick_ready : s.countTick.ready = s.ready := rfl
@[simp] theorem State.countTick_rb : s.countTick.rb = s.rb := rfl
@[simp] theorem State.countTick_results : s.countTick.results = s.results := rfl
@[simp] theorem State.countTick_env : s.countTick.env = s.env := rfl

/-! ### setWrites -/

@[simp] theorem State.setWrites_params (q : List (List Byte)) : (s.setWrites q).params = s.params := rfl
@[simp] theorem State.setWrites_cmd (q : List (List Byte)) : (s.setWrites q).cmd = s.cmd := rfl
@[simp] theorem State.setWrites_args (q : List (List Byte)) : (s.setWrites q).args = s.args := rfl
@[simp] theorem State.setWrites_crcReg (q : List (List Byte)) : (s.setWrites q).crcReg = s.crcReg := rfl
@[simp] theorem State.setWrites_err (q : List (List Byte)) : (s.setWrites q).err = s.err := rfl
@[simp] theorem State.setWrites_cfgInterval (q : List (List Byte)) : (s.setWrites q).cfgInterval = s.cfgInterval := rfl
@[simp] theorem State.setWrites_cfgTimeout (q : List (List Byte)) : (s.setWrites q).cfgTimeout = s.cfgTimeout := rfl
@[simp] theorem State.setWrites_timeRef (q : List (List Byte)) : (s.setWrites q).timeRef = s.timeRef := rfl
@[simp] theorem State.setWrites_cntCrcErr (q : List (List Byte)) : (s.setWrites q).cntCrcErr = s.cntCrcErr := rfl
@[simp] theorem State.setWrites_cntTimeout (q : List (List Byte)) : (s.setWrites q).cntTimeout = s.cntTimeout := rfl
@[simp] theorem State.setWrites_cntUnsol (q : List (List Byte)) : (s.setWrites q).cntUnsol = s.cntUnsol := rfl
@[simp] theorem State.setWrites_cntResolved (q : List (List Byte)) : (s.setWrites q).cntResolved = s.cntResolved := rfl
@[simp] theorem State.setWrites_cntTx (q : List (List Byte)) : (s.setWrites q).cntTx = s.cntTx := rfl
@[simp] theorem State.setWrites_cntTick (q : List (List Byte)) : (s.setWrites q).cntTick = s.cntTick := rfl
@[simp] theorem State.setWrites_pendingWrites (q : List (List Byte)) : (s.setWrites q).pendingWrites = q := rfl
@[simp] theorem State.setWrites_pendingReads (q : List (List Byte)) : (s.setWrites q).pendingReads = s.pendingReads := rfl
@[simp] theorem State.setWrites_parser (q : List (List Byte)) : (s.setWrites q).parser = s.parser := rfl
@[simp] theorem State.setWrites_ready (q : List (List Byte)) : (s.setWrites q).ready = s.ready := rfl
@[simp] theorem State.setWrites_rb (q : List (List Byte)) : (s.setWrites q).rb = s.rb := rfl
@[simp] theorem State.setWrites_results (q : List (List Byte)) : (s.setWrites q).results = s.results := rfl
@[simp] theorem State.setWrites_env (q : List (List Byte)) : (s.setWrites q).env = s.env := rfl

/-! ### setReads -/

@[simp] theorem State.setReads_params (q : List PendingRequest) : (s.setReads q).params = s.params := rfl
@[simp] theorem State.setReads_cmd (q : List PendingRequest) : (s.setReads q).cmd = s.cmd := rfl
@[simp] theorem State.setReads_args (q : List PendingRequest) : (s.setReads q).args = s.args := rfl
@[simp] theorem State.setReads_crcReg (q : List PendingRequest) : (s.setReads q).crcReg = s.crcReg := rfl
@[simp] theorem State.setReads_err (q : List PendingRequest) : (s.setReads q).err = s.err := rfl
@[simp] theorem State.setReads_cfgInterval (q : List PendingRequest) : (s.setReads q).cfgInterval = s.cfgInterval := rfl
@[simp] theorem State.setReads_cfgTimeout (q : List PendingRequest) : (s.setReads q).cfgTimeout = s.cfgTimeout := rfl
@[simp] theorem State.setReads_timeRef (q : List PendingRequest) : (s.setReads q).timeRef = s.timeRef := rfl
@[simp] theorem State.setReads_cntCrcErr (q : List PendingRequest) : (s.setReads q).cntCrcErr = s.cntCrcErr := rfl
@[simp] theorem State.setReads_cntTimeout (q : List PendingRequest) : (s.setReads q).cntTimeout = s.cntTimeout := rfl
@[simp] theorem State.setReads_cntUnsol (q : List PendingRequest) : (s.setReads q).cntUnsol = s.cntUnsol := rfl
@[simp] theorem State.setReads_cntResolved (q : List PendingRequest) : (s.setReads q).cntResolved = s.cntResolved := rfl
@[simp] theorem State.setReads_cntTx (q : List PendingRequest) : (s.setReads q).cntTx = s.cntTx := rfl
@[simp] theorem State.setReads_cntTick (q : List PendingRequest) : (s.setReads q).cntTick = s.cntTick := rfl
@[simp] theorem State.setReads_pendingWrites (q : List PendingRequest) : (s.setReads q).pendingWrites = s.pendingWrites := rfl
@[simp] theorem State.setReads_pendingReads (q : List PendingRequest) : (s.setReads q).pendingReads = q := rfl
@[simp] theorem State.setReads_parser (q : List PendingRequest) : (s.setReads q).parser = s.parser := rfl
@[simp] theorem State.setReads_ready (q : List PendingRequest) : (s.setReads q).ready = s.ready := rfl
@[simp] theorem State.setReads_rb (q : List PendingRequest) : (s.setReads q).rb = s.rb := rfl
@[simp] theorem State.setReads_results (q : List PendingRequest) : (s.setReads q).results = s.results := rfl
@[simp] theorem State.setReads_env (q : List PendingRequest) : (s.setReads q).env = s.env := rfl

/-! ### setParser -/

@[simp] theorem State.setParser_params (p : Parser) : (s.setParser p).params = s.params := rfl
@[simp] theorem State.setParser_cmd (p : Parser) : (s.setParser p).cmd = s.cmd := rfl
@[simp] theorem State.setParser_args (p : Parser) : (s.setParser p).args = s.args := rfl
@[simp] theorem State.setParser_crcReg (p : Parser) : (s.setParser p).crcReg = s.crcReg := rfl
@[simp] theorem State.setParser_err (p : Parser) : (s.setParser p).err = s.err := rfl
@[simp] theorem State.setParser_cfgInterval (p : Parser) : (s.setParser p).cfgInterval = s.cfgInterval := rfl
@[simp] theorem State.setParser_cfgTimeout (p : Parser) : (s.setParser p).cfgTimeout = s.cfgTimeout := rfl
@[simp] theorem State.setParser_timeRef (p : Parser) : (s.setParser p).timeRef = s.timeRef := rfl
@[simp] theorem State.setParser_cntCrcErr (p : Parser) : (s.setParser p).cntCrcErr = s.cntCrcErr := rfl
@[simp] theorem State.setParser_cntTimeout (p : Parser) : (s.setParser p).cntTimeout = s.cntTimeout := rfl
@[simp] theorem State.setParser_cntUnsol (p : Parser) : (s.setParser p).cntUnsol = s.cntUnsol := rfl
@[simp] theorem State.setParser_cntResolved (p : Parser) : (s.setParser p).cntResolved = s.cntResolved := rfl
@[simp] theorem State.setParser_cntTx (p : Parser) : (s.setParser p).cntTx = s.cntTx := rfl
@[simp] theorem State.setParser_cntTick (p : Parser) : (s.setParser p).cntTick = s.cntTick := rfl
@[simp] theorem State.setParser_pendingWrites (p : Parser) : (s.setParser p).pendingWrites = s.pendingWrites := rfl
@[simp] theorem State.setParser_pendingReads (p : Parser) : (s.setParser p).pendingReads = s.pendingReads := rfl
@[simp] theorem State.setParser_parser (p : Parser) : (s.setParser p).parser = p := rfl
@[simp] theorem State.setParser_ready (p : Parser) : (s.setParser p).ready = s.ready := rfl
@[simp] theorem State.setParser_rb (p : Parser) : (s.setParser p).rb = s.rb := rfl
@[simp] theorem State.setParser_results (p : Parser) : (s.setParser p).results = s.results := rfl
@[simp] theorem State.setParser_env (p : Parser) : (s.setParser p).env = s.env := rfl

/-! ### setReady -/

@[simp] theorem State.setReady_params (q : List Response) : (s.setReady q).params = s.params := rfl
@[simp] theorem State.setReady_cmd (q : List Response) : (s.setReady q).cmd = s.cmd := rfl
@[simp] theorem State.setReady_args (q : List Response) : (s.setReady q).args = s.args := rfl
@[simp] theorem State.setReady_crcReg (q : List Response) : (s.setReady q).crcReg = s.crcReg := rfl
@[simp] theorem State.setReady_err (q : List Response) : (s.setReady q).err = s.err := rfl
@[simp] theorem State.setReady_cfgInterval (q : List Response) : (s.setReady q).cfgInterval = s.cfgInterval := rfl
@[simp] theorem State.setReady_cfgTimeout (q : List Response) : (s.setReady q).cfgTimeout = s.cfgTimeout := rfl
@[simp] theorem State.setReady_timeRef (q : List Response) : (s.setReady q).timeRef = s.timeRef := rfl
@[simp] theorem State.setReady_cntCrcErr (q : List Response) : (s.setReady q).cntCrcErr = s.cntCrcErr := rfl
@[simp] theorem State.setReady_cntTimeout (q : List Response) : (s.setReady q).cntTimeout = s.cntTimeout := rfl
@[simp] theorem State.setReady_cntUnsol (q : List Response) : (s.setReady q).cntUnsol = s.cntUnsol := rfl
@[simp] theorem State.setReady_cntResolved (q : List Response) : (s.setReady q).cntResolved = s.cntResolved := rfl
@[simp] theorem State.setReady_cntTx (q : List Response) : (s.setReady q).cntTx = s.cntTx := rfl
@[simp] theorem State.setReady_cntTick (q : List Response) : (s.setReady q).cntTick = s.cntTick := rfl
@[simp] theorem State.setReady_pendingWrites (q : List Response) : (s.setReady q).pendingWrites = s.pendingWrites := rfl
@[simp] theorem State.setReady_pendingReads (q : List Response) : (s.setReady q).pendingReads = s.pendingReads := rfl
@[simp] theorem State.setReady_parser (q : List Response) : (s.setReady q).parser = s.parser := rfl
@[simp] theorem State.setReady_ready (q : List Response) : (s.setReady q).ready = q := rfl
@[simp] theorem State.setReady_rb (q : List Response) : (s.setReady q).rb = s.rb := rfl
@[simp] theorem State.setReady_results (q : List Response) : (s.setReady q).results = s.results := rfl
@[simp] theorem State.setReady_env (q : List Response) : (s.setReady q).env = s.env := rfl

/-! ### setRb -/

@[simp] theorem State.setRb_params (rb : RegisterBuffer) : (s.setRb rb).params = s.params := rfl
@[simp] theorem State.setRb_cmd (rb : RegisterBuffer) : (s.setRb rb).cmd = s.cmd := rfl
@[simp] theorem State.setRb_args (rb : RegisterBuffer) : (s.setRb rb).args = s.args := rfl
@[simp] theorem State.setRb_crcReg (rb : RegisterBuffer) : (s.setRb rb).crcReg = s.crcReg := rfl
@[simp] theorem State.setRb_err (rb : RegisterBuffer) : (s.setRb rb).err = s.err := rfl
@[simp] theorem State.setRb_cfgInterval (rb : RegisterBuffer) : (s.setRb rb).cfgInterval = s.cfgInterval := rfl
@[simp] theorem State.setRb_cfgTimeout (rb : RegisterBuffer) : (s.setRb rb).cfgTimeout = s.cfgTimeout := rfl
@[simp] theorem State.setRb_timeRef (rb : RegisterBuffer) : (s.setRb rb).timeRef = s.timeRef := rfl
@[simp] theorem State.setRb_cntCrcErr (rb : RegisterBuffer) : (s.setRb rb).cntCrcErr = s.cntCrcErr := rfl
@[simp] theorem State.setRb_cntTimeout (rb : RegisterBuffer) : (s.setRb rb).cntTimeout = s.cntTimeout := rfl
@[simp] theorem State.setRb_cntUnsol (rb : RegisterBuffer) : (s.setRb rb).cntUnsol = s.cntUnsol := rfl
@[simp] theorem State.setRb_cntResolved (rb : RegisterBuffer) : (s.setRb rb).cntResolved = s.cntResolved := rfl
@[simp] theorem State.setRb_cntTx (rb : RegisterBuffer) : (s.setRb rb).cntTx = s.cntTx := rfl
@[simp] theorem State.setRb_cntTick (rb : RegisterBuffer) : (s.setRb rb).cntTick = s.cntTick := rfl
@[simp] theorem State.setRb_pendingWrites (rb : RegisterBuffer) : (s.setRb rb).pendingWrites = s.pendingWrites := rfl
@[simp] theorem State.setRb_pendingReads (rb : RegisterBuffer) : (s.setRb rb).pendingReads = s.pendingReads := rfl
@[simp] theorem State.setRb_parser (rb : RegisterBuffer) : (s.setRb rb).parser = s.parser := rfl
@[simp] theorem State.setRb_ready (rb : RegisterBuffer) : (s.setRb rb).ready = s.ready := rfl
@[simp] theorem State.setRb_rb (rb : RegisterBuffer) : (s.setRb rb).rb = rb := rfl
@[simp] theorem State.setRb_results (rb : RegisterBuffer) : (s.setRb rb).results = s.results := rfl
@[simp] theorem State.setRb_env (rb : RegisterBuffer) : (s.setRb rb).env = s.env := rfl

/-! ### setResults -/

@[simp] theorem State.setResults_params (l : List MotorResult) : (s.setResults l).params = s.params := rfl
@[simp] theorem State.setResults_cmd (l : List MotorResult) : (s.setResults l).cmd = s.cmd := rfl
@[simp] theorem State.setResults_args (l : List MotorResult) : (s.setResults l).args = s.args := rfl
@[simp] theorem State.setResults_crcReg (l : List MotorResult) : (s.setResults l).crcReg = s.crcReg := rfl
@[simp] theorem State.setResults_err (l : List MotorResult) : (s.setResults l).err = s.err := rfl
@[simp] theorem State.setResults_cfgInterval (l : List MotorResult) : (s.setResults l).cfgInterval = s.cfgInterval := rfl
@[simp] theorem State.setResults_cfgTimeout (l : List MotorResult) : (s.setResults l).cfgTimeout = s.cfgTimeout := rfl
@[simp] theorem State.setResults_timeRef (l : List MotorResult) : (s.setResults l).timeRef = s.timeRef := rfl
@[simp] theorem State.setResults_cntCrcErr (l : List MotorResult) : (s.setResults l).cntCrcErr = s.cntCrcErr := rfl
@[simp] theorem State.setResults_cntTimeout (l : List MotorResult) : (s.setResults l).cntTimeout = s.cntTimeout := rfl
@[simp] theorem State.setResults_cntUnsol (l : List MotorResult) : (s.setResults l).cntUnsol = s.cntUnsol := rfl
@[simp] theorem State.setResults_cntResolved (l : List MotorResult) : (s.setResults l).cntResolved = s.cntResolved := rfl
@[simp] theorem State.setResults_cntTx (l : List MotorResult) : (s.setResults l).cntTx = s.cntTx := rfl
@[simp] theorem State.setResults_cntTick (l : List MotorResult) : (s.setResults l).cntTick = s.cntTick := rfl
@[simp] theorem State.setResults_pendingWrites (l : List MotorResult) : (s.setResults l).pendingWrites = s.pendingWrites := rfl
@[simp] theorem State.setResults_pendingReads (l : List MotorResult) : (s.setResults l).pendingReads = s.pendingReads := rfl
@[simp] theorem State.setResults_parser (l : List MotorResult) : (s.setResults l).parser = s.parser := rfl
@[simp] theorem State.setResults_ready (l : List MotorResult) : (s.setResults l).ready = s.ready := rfl
@[simp] theorem State.setResults_rb (l : List MotorResult) : (s.setResults l).rb = s.rb := rfl
@[simp] theorem State.setResults_results (l : List MotorResult) : (s.setResults l).results = l := rfl
@[simp] theorem State.setResults_env (l : List MotorResult) : (s.setResults l).env = s.env := rfl

/-! ### transmit -/

@[simp] theorem State.transmit_params (bs : List Byte) : (s.transmit bs).params = s.params := rfl
@[simp] theorem State.transmit_cmd (bs : List Byte) : (s.transmit bs).cmd = s.cmd := rfl
@[simp] theorem State.transmit_args (bs : List Byte) : (s.transmit bs).args = s.args := rfl
@[simp] theorem State.transmit_crcReg (bs : List Byte) : (s.transmit bs).crcReg = s.crcReg := rfl
@[simp] theorem State.transmit_err (bs : List Byte) : (s.transmit bs).err = s.err := rfl
@[simp] theorem State.transmit_cfgInterval (bs : List Byte) : (s.transmit bs).cfgInterval = s.cfgInterval := rfl
@[simp] theorem State.transmit_cfgTimeout (bs : List Byte) : (s.transmit bs).cfgTimeout = s.cfgTimeout := rfl
@[simp] theorem State.transmit_timeRef (bs : List Byte) : (s.transmit bs).timeRef = s.timeRef := rfl
@[simp] theorem State.transmit_cntCrcErr (bs : List Byte) : (s.transmit bs).cntCrcErr = s.cntCrcErr := rfl
@[simp] theorem State.transmit_cntTimeout (bs : List Byte) : (s.transmit bs).cntTimeout = s.cntTimeout := rfl
@[simp] theorem State.transmit_cntUnsol (bs : List Byte) : (s.transmit bs).cntUnsol = s.cntUnsol := rfl
@[simp] theorem State.transmit_cntResolved (bs : List Byte) : (s.transmit bs).cntResolved = s.cntResolved := rfl
@[simp] theorem State.transmit_cntTx (bs : List Byte) : (s.transmit bs).cntTx = s.cntTx := rfl
@[simp] theorem State.transmit_cntTick (bs : List Byte) : (s.transmit bs).cntTick = s.cntTick := rfl
@[simp] theorem State.transmit_pendingWrites (bs : List Byte) : (s.transmit bs).pendingWrites = s.pendingWrites := rfl
@[simp] theorem State.transmit_pendingReads (bs : List Byte) : (s.transmit bs).pendingReads = s.pendingReads := rfl
@[simp] theorem State.transmit_parser (bs : List Byte) : (s.transmit bs).parser = s.parser := rfl
@[simp] theorem State.transmit_ready (bs : List Byte) : (s.transmit bs).ready = s.ready := rfl
@[simp] theorem State.transmit_rb (bs : List Byte) : (s.transmit bs).rb = s.rb := rfl
@[simp] theorem State.transmit_results (bs : List Byte) : (s.transmit bs).results = s.results := rfl
@[simp] theorem State.transmit_env (bs : List Byte) : (s.transmit bs).env = { s.env with tx := s.env.tx ++ [bs] } := rfl

/-! ### clearRx -/

@[simp] theorem State.clearRx_params : s.clearRx.params = s.params := rfl
@[simp] theorem State.clearRx_cmd : s.clearRx.cmd = s.cmd := rfl
@[simp] theorem State.clearRx_args : s.clearRx.args = s.args := rfl
@[simp] theorem State.clearRx_crcReg : s.clearRx.crcReg = s.crcReg := rfl
@[simp] theorem State.clearRx_err : s.clearRx.err = s.err := rfl
@[simp] theorem State.clearRx_cfgInterval : s.clearRx.cfgInterval = s.cfgInterval := rfl
@[simp] theorem State.clearRx_cfgTimeout : s.clearRx.cfgTimeout = s.cfgTimeout := rfl
@[simp] theorem State.clearRx_timeRef : s.clearRx.timeRef = s.timeRef := rfl
@[simp] theorem State.clearRx_cntCrcErr : s.clearRx.cntCrcErr = s.cntCrcErr := rfl
@[simp] theorem State.clearRx_cntTimeout : s.clearRx.cntTimeout = s.cntTimeout := rfl
@[simp] theorem State.clearRx_cntUnsol : s.clearRx.cntUnsol = s.cntUnsol := rfl
@[simp] theorem State.clearRx_cntResolved : s.clearRx.cntResolved = s.cntResolved := rfl
@[simp] theorem State.clearRx_cntTx : s.clearRx.cntTx = s.cntTx := rfl
@[simp] theorem State.clearRx_cntTick : s.clearRx.cntTick = s.cntTick := rfl
@[simp] theorem State.clearRx_pendingWrites : s.clearRx.pendingWrites = s.pendingWrites := rfl
@[simp] theorem State.clearRx_pendingReads : s.clearRx.pendingReads = s.pendingReads := rfl
@[simp] theorem State.clearRx_parser : s.clearRx.parser = s.parser := rfl
@[simp] theorem State.clearRx_ready : s.clearRx.ready = s.ready := rfl
@[simp] theorem State.clearRx_rb : s.clearRx.rb = s.rb := rfl
@[simp] theorem State.clearRx_results : s.clearRx.results = s.results := rfl
@[simp] theorem State.clearRx_env : s.clearRx.env = { s.env with rx := [] } := rfl

/-! ### receive -/

@[simp] theorem State.receive_params (bs : List Byte) : (s.receive bs).params = s.params := rfl
@[simp] theorem State.receive_cmd (bs : List Byte) : (s.receive bs).cmd = s.cmd := rfl
@[simp] theorem State.receive_args (bs : List Byte) : (s.receive bs).args = s.args := rfl
@[simp] theorem State.receive_crcReg (bs : List Byte) : (s.receive bs).crcReg = s.crcReg := rfl
@[simp] theorem State.receive_err (bs : List Byte) : (s.receive bs).err = s.err := rfl
@[simp] theorem State.receive_cfgInterval (bs : List Byte) : (s.receive bs).cfgInterval = s.cfgInterval := rfl
@[simp] theorem State.receive_cfgTimeout (bs : List Byte) : (s.receive bs).cfgTimeout = s.cfgTimeout := rfl
@[simp] theorem State.receive_timeRef (bs : List Byte) : (s.receive bs).timeRef = s.timeRef := rfl
@[simp] theorem State.receive_cntCrcErr (bs : List Byte) : (s.receive bs).cntCrcErr = s.cntCrcErr := rfl
@[simp] theorem State.receive_cntTimeout (bs : List Byte) : (s.receive bs).cntTimeout = s.cntTimeout := rfl
@[simp] theorem State.receive_cntUnsol (bs : List Byte) : (s.receive bs).cntUnsol = s.cntUnsol := rfl
@[simp] theorem State.receive_cntResolved (bs : List Byte) : (s.receive bs).cntResolved = s.cntResolved := rfl
@[simp] theorem State.receive_cntTx (bs : List Byte) : (s.receive bs).cntTx = s.cntTx := rfl
@[simp] theorem State.receive_cntTick (bs : List Byte) : (s.receive bs).cntTick = s.cntTick := rfl
@[simp] theorem State.receive_pendingWrites (bs : List Byte) : (s.receive bs).pendingWrites = s.pendingWrites := rfl
@[simp] theorem State.receive_pendingReads (bs : List Byte) : (s.receive bs).pendingReads = s.pendingReads := rfl
@[simp] theorem State.receive_parser (bs : List Byte) : (s.receive bs).parser = s.parser := rfl
@[simp] theorem State.receive_ready (bs : List Byte) : (s.receive bs).ready = s.ready := rfl
@[simp] theorem State.receive_rb (bs : List Byte) : (s.receive bs).rb = s.rb := rfl
@[simp] theorem State.receive_results (bs : List Byte) : (s.receive bs).results = s.results := rfl
@[simp] theorem State.receive_env (bs : List Byte) : (s.receive bs).env = { s.env with rx := s.env.rx ++ bs } := rfl

/-! ### setOpen -/

@[simp] theorem State.setOpen_params (b : Bool) : (s.setOpen b).params = s.params := rfl
@[simp] theorem State.setOpen_cmd (b : Bool) : (s.setOpen b).cmd = s.cmd := rfl
@[simp] theorem State.setOpen_args (b : Bool) : (s.setOpen b).args = s.args := rfl
@[simp] theorem State.setOpen_crcReg (b : Bool) : (s.setOpen b).crcReg = s.crcReg := rfl
@[simp] theorem State.setOpen_err (b : Bool) : (s.setOpen b).err = s.err := rfl
@[simp] theorem State.setOpen_cfgInterval (b : Bool) : (s.setOpen b).cfgInterval = s.cfgInterval := rfl
@[simp] theorem State.setOpen_cfgTimeout (b : Bool) : (s.setOpen b).cfgTimeout = s.cfgTimeout := rfl
@[simp] theorem State.setOpen_timeRef (b : Bool) : (s.setOpen b).timeRef = s.timeRef := rfl
@[simp] theorem State.setOpen_cntCrcErr (b : Bool) : (s.setOpen b).cntCrcErr = s.cntCrcErr := rfl
@[simp] theorem State.setOpen_cntTimeout (b : Bool) : (s.setOpen b).cntTimeout = s.cntTimeout := rfl
@[simp] theorem State.setOpen_cntUnsol (b : Bool) : (s.setOpen b).cntUnsol = s.cntUnsol := rfl
@[simp] theorem State.setOpen_cntResolved (b : Bool) : (s.setOpen b).cntResolved = s.cntResolved := rfl
@[simp] theorem State.setOpen_cntTx (b : Bool) : (s.setOpen b).cntTx = s.cntTx := rfl
@[simp] theorem State.setOpen_cntTick (b : Bool) : (s.setOpen b).cntTick = s.cntTick := rfl
@[simp] theorem State.setOpen_pendingWrites (b : Bool) : (s.setOpen b).pendingWrites = s.pendingWrites := rfl
@[simp] theorem State.setOpen_pendingReads (b : Bool) : (s.setOpen b).pendingReads = s.pendingReads := rfl
@[simp] theorem State.setOpen_parser (b : Bool) : (s.setOpen b).parser = s.parser := rfl
@[simp] theorem State.setOpen_ready (b : Bool) : (s.setOpen b).ready = s.ready := rfl
@[simp] theorem State.setOpen_rb (b : Bool) : (s.setOpen b).rb = s.rb := rfl
@[simp] theorem State.setOpen_results (b : Bool) : (s.setOpen b).results = s.results := rfl
@[simp] theorem State.setOpen_env (b : Bool) : (s.setOpen b).env = { s.env with isOpen := b } := rfl

/-! ### logRead -/

@[simp] theorem State.logRead_params (v : Word) : (s.logRead v).params = s.params := rfl
@[simp] theorem State.logRead_cmd (v : Word) : (s.logRead v).cmd = s.cmd := rfl
@[simp] theorem State.logRead_args (v : Word) : (s.logRead v).args = s.args := rfl
@[simp] theorem State.logRead_crcReg (v : Word) : (s.logRead v).crcReg = s.crcReg := rfl
@[simp] theorem State.logRead_err (v : Word) : (s.logRead v).err = s.err := rfl
@[simp] theorem State.logRead_cfgInterval (v : Word) : (s.logRead v).cfgInterval = s.cfgInterval := rfl
@[simp] theorem State.logRead_cfgTimeout (v : Word) : (s.logRead v).cfgTimeout = s.cfgTimeout := rfl
@[simp] theorem State.logRead_timeRef (v : Word) : (s.logRead v).timeRef = s.timeRef := rfl
@[simp] theorem State.logRead_cntCrcErr (v : Word) : (s.logRead v).cntCrcErr = s.cntCrcErr := rfl
@[simp] theorem State.logRead_cntTimeout (v : Word) : (s.logRead v).cntTimeout = s.cntTimeout := rfl
@[simp] theorem State.logRead_cntUnsol (v : Word) : (s.logRead v).cntUnsol = s.cntUnsol := rfl
@[simp] theorem State.logRead_cntResolved (v : Word) : (s.logRead v).cntResolved = s.cntResolved := rfl
@[simp] theorem State.logRead_cntTx (v : Word) : (s.logRead v).cntTx = s.cntTx := rfl
@[simp] theorem State.logRead_cntTick (v : Word) : (s.logRead v).cntTick = s.cntTick := rfl
@[simp] theorem State.logRead_pendingWrites (v : Word) : (s.logRead v).pendingWrites = s.pendingWrites := rfl
@[simp] theorem State.logRead_pendingReads (v : Word) : (s.logRead v).pendingReads = s.pendingReads := rfl
@[simp] theorem State.logRead_parser (v : Word) : (s.logRead v).parser = s.parser := rfl
@[simp] theorem State.logRead_ready (v : Word) : (s.logRead v).ready = s.ready := rfl
@[simp] theorem State.logRead_rb (v : Word) : (s.logRead v).rb = s.rb := rfl
@[simp] theorem State.logRead_results (v : Word) : (s.logRead v).results = s.results := rfl
@[simp] theorem State.logRead_env (v : Word) : (s.logRead v).env = { s.env with reads := s.env.reads ++ [v] } := rfl

/-! ### setAgenda -/

@[simp] theorem State.setAgenda_params (a : List Event) : (s.setAgenda a).params = s.params := rfl
@[simp] theorem State.setAgenda_cmd (a : List Event) : (s.setAgenda a).cmd = s.cmd := rfl
@[simp] theorem State.setAgenda_args (a : List Event) : (s.setAgenda a).args = s.args := rfl
@[simp] theorem State.setAgenda_crcReg (a : List Event) : (s.setAgenda a).crcReg = s.crcReg := rfl
@[simp] theorem State.setAgenda_err (a : List Event) : (s.setAgenda a).err = s.err := rfl
@[simp] theorem State.setAgenda_cfgInterval (a : List Event) : (s.setAgenda a).cfgInterval = s.cfgInterval := rfl
@[simp] theorem State.setAgenda_cfgTimeout (a : List Event) : (s.setAgenda a).cfgTimeout = s.cfgTimeout := rfl
@[simp] theorem State.setAgenda_timeRef (a : List Event) : (s.setAgenda a).timeRef = s.timeRef := rfl
@[simp] theorem State.setAgenda_cntCrcErr (a : List Event) : (s.setAgenda a).cntCrcErr = s.cntCrcErr := rfl
@[simp] theorem State.setAgenda_cntTimeout (a : List Event) : (s.setAgenda a).cntTimeout = s.cntTimeout := rfl
@[simp] theorem State.setAgenda_cntUnsol (a : List Event) : (s.setAgenda a).cntUnsol = s.cntUnsol := rfl
@[simp] theorem State.setAgenda_cntResolved (a : List Event) : (s.setAgenda a).cntResolved = s.cntResolved := rfl
@[simp] theorem State.setAgenda_cntTx (a : List Event) : (s.setAgenda a).cntTx = s.cntTx := rfl
@[simp] theorem State.setAgenda_cntTick (a : List Event) : (s.setAgenda a).cntTick = s.cntTick := rfl
@[simp] theorem State.setAgenda_pendingWrites (a : List Event) : (s.setAgenda a).pendingWrites = s.pendingWrites := rfl
@[simp] theorem State.setAgenda_pendingReads (a : List Event) : (s.setAgenda a).pendingReads = s.pendingReads := rfl
@[simp] theorem State.setAgenda_parser (a : List Event) : (s.setAgenda a).parser = s.parser := rfl
@[simp] theorem State.setAgenda_ready (a : List Event) : (s.setAgenda a).ready = s.ready := rfl
@[simp] theorem State.setAgenda_rb (a : List Event) : (s.setAgenda a).rb = s.rb := rfl
@[simp] theorem State.setAgenda_results (a : List Event) : (s.setAgenda a).results = s.results := rfl
@[simp] theorem State.setAgenda_env (a : List Event) : (s.setAgenda a).env = { s.env with agenda := a } := rfl

end Sys2Proof.Machine
end

