-- ==== Sys2Proof/Laws/Ops.lean ====
section
/-!
SUPPORT. Sys2Proof/Laws/Ops.lean: what each shared operation of Machine/Ops.lean can do, said once, and the read
after write laws of the Register Buffer and of the result registers.
-/

namespace Sys2Proof.Machine

open Sys2Proof

/-! ## Queues -/

/-- `EnqueueWrite` queues the body at the end, or raises QFULL. -/
theorem State.enqueueWrite_cases (s : State) (body : List Byte) :
    (s.pendingWrites.length = s.params.wqDepth ∧ s.enqueueWrite body = s.raise .qFull)
      ∨ (s.pendingWrites.length ≠ s.params.wqDepth ∧
        s.enqueueWrite body = s.setWrites (s.pendingWrites ++ [body])) := by
  unfold State.enqueueWrite
  split
  · exact .inl ⟨‹_›, rfl⟩
  · exact .inr ⟨‹_›, rfl⟩

/-- ISSUE_READ raises INVADDR, or QFULL, or queues a Created request at the end. -/
theorem State.issueRead_cases (s : State) (k : RegKind) (m : Byte) :
    (¬ s.HasMotor m.toNat ∧ s.issueRead k m = s.raise .invAddr)
      ∨ (s.HasMotor m.toNat ∧ s.pendingReads.length = s.params.rqDepth ∧ s.issueRead k m = s.raise .qFull)
      ∨ (s.HasMotor m.toNat ∧ s.pendingReads.length ≠ s.params.rqDepth ∧
        s.issueRead k m = s.setReads (s.pendingReads ++
          [{ motorId := m, kind := k, state := .created, ticksWaited := 0#32, timeoutTicks := s.cfgTimeout }])) := by
  unfold State.issueRead
  split
  · exact .inl ⟨‹_›, rfl⟩
  · next h =>
    split
    · exact .inr (.inl ⟨not_not.mp h, ‹_›, rfl⟩)
    · exact .inr (.inr ⟨not_not.mp h, ‹_›, rfl⟩)

/-- CANCEL raises CANCELMISS, or takes one entry out. -/
theorem State.cancelWrite_cases (s : State) (i : Nat) :
    (s.pendingWrites.length ≤ i ∧ s.cancelWrite i = s.raise .cancelMiss)
      ∨ (i < s.pendingWrites.length ∧ s.cancelWrite i = s.setWrites (s.pendingWrites.eraseIdx i)) := by
  unfold State.cancelWrite
  split
  · exact .inl ⟨‹_›, rfl⟩
  · exact .inr ⟨by omega, rfl⟩

/-! ## The Register Buffer -/

@[simp] theorem RegisterBuffer.bank_setBank (rb : RegisterBuffer) (k k' : RbKind) (l : List Word) :
    (rb.setBank k l).bank k' = if k' = k then l else rb.bank k' := by
  cases k <;> cases k' <;> rfl

theorem RegisterBuffer.Sized.bank_length {rb : RegisterBuffer} {n : Nat} (h : rb.Sized n) (k : RbKind) :
    (rb.bank k).length = n := by
  obtain ⟨h0, h1, h2, h3, h4, h5⟩ := h
  cases k <;> assumption

theorem RegisterBuffer.Sized.setBank {rb : RegisterBuffer} {n : Nat} (h : rb.Sized n) (k : RbKind) {l : List Word}
    (hl : l.length = n) : (rb.setBank k l).Sized n := by
  obtain ⟨h0, h1, h2, h3, h4, h5⟩ := h
  cases k <;> simp_all [RegisterBuffer.setBank, RegisterBuffer.Sized]

/-- STAGE writes the Register Buffer, or raises INVADDR. -/
theorem State.stage_cases (s : State) (k : RbKind) (m : Nat) (v : Word) :
    (m = 0 ∧ s.stage k m v = s.setRb (s.rb.setBank k (List.replicate s.params.nMotors v)))
      ∨ (s.HasMotor m ∧ s.stage k m v = s.setRb (s.rb.setBank k ((s.rb.bank k).set (m - 1) v)))
      ∨ (s.params.nMotors < m ∧ s.stage k m v = s.raise .invAddr) := by
  unfold State.stage
  split
  · exact .inl ⟨‹_›, rfl⟩
  · split
    · exact .inr (.inl ⟨⟨by omega, ‹_›⟩, rfl⟩)
    · exact .inr (.inr ⟨by omega, rfl⟩)

/-- Read after write: a slot written is the value, every other slot is as before. -/
theorem State.rbValue_set {s : State} (h : s.rb.Sized s.params.nMotors) {m : Nat} (hm : s.HasMotor m)
    (k k' : RbKind) (v : Word) (j : Nat) :
    (s.setRb (s.rb.setBank k ((s.rb.bank k).set (m - 1) v))).rbValue k' j =
      if k' = k ∧ m = j then v else s.rbValue k' j := by
  have hl := h.bank_length k
  obtain ⟨hm1, hm2⟩ := hm
  simp only [State.rbValue, State.HasMotor, State.setRb_params, State.setRb_rb, RegisterBuffer.bank_setBank]
  by_cases hj : 1 ≤ j ∧ j ≤ s.params.nMotors
  · rw [if_pos hj, if_pos hj]
    by_cases hk : k' = k
    · subst hk
      simp only [if_true, true_and, List.getD_eq_getElem?_getD, List.getElem?_set]
      by_cases hmj : m = j
      · subst hmj
        have : m - 1 < s.params.nMotors := by omega
        simp [hl, this]
      · rw [if_neg (by omega), if_neg hmj]
    · simp [hk]
  · rw [if_neg hj, if_neg hj, if_neg]
    rintro ⟨-, rfl⟩
    exact hj ⟨hm1, hm2⟩

/-- Read after a write of every slot. -/
theorem State.rbValue_all (s : State) (k k' : RbKind) (v : Word) (j : Nat) :
    (s.setRb (s.rb.setBank k (List.replicate s.params.nMotors v))).rbValue k' j =
      if k' = k ∧ s.HasMotor j then v else s.rbValue k' j := by
  simp only [State.rbValue, State.HasMotor, State.setRb_params, State.setRb_rb, RegisterBuffer.bank_setBank]
  by_cases hj : 1 ≤ j ∧ j ≤ s.params.nMotors
  · by_cases hk : k' = k
    · have : j - 1 < s.params.nMotors := by omega
      simp [hj, hk, List.getD_eq_getElem?_getD, this]
    · simp [hj, hk]
  · simp [hj]

/-- A batch write carries the bank as it stands. -/
theorem State.batchValues_eq_bank {s : State} (h : s.rb.Sized s.params.nMotors) (k : RbKind) :
    s.batchValues k = s.rb.bank k := by
  have hl := h.bank_length k
  apply List.ext_getElem?
  intro j
  simp only [State.batchValues, List.getElem?_map]
  by_cases hj : j < s.params.nMotors
  · simp [List.getElem?_range hj, State.rbValue, State.HasMotor, hl ▸ hj]
    intro h
    omega
  · have hj' : (s.rb.bank k).length ≤ j := by omega
    have h2 : (List.range s.params.nMotors)[j]? = none := by simp; omega
    rw [h2, List.getElem?_eq_none hj']
    rfl

@[simp] theorem State.batchValues_length (s : State) (k : RbKind) :
    (s.batchValues k).length = s.params.nMotors := by
  simp [State.batchValues]

/-! ## Result registers -/

/-- Read after write of the result registers. -/
theorem State.result_modifyResult {s : State} (h : s.results.length = s.params.nMotors) {m : Nat}
    (hm : s.HasMotor m) (f : MotorResult → MotorResult) (j : Nat) :
    (s.modifyResult m f).result j = if j = m then f (s.result m) else s.result j := by
  have hm' := hm
  obtain ⟨hm1, hm2⟩ := hm'
  simp only [State.modifyResult, if_pos hm, State.result, State.HasMotor, State.setResults_params,
    State.setResults_results]
  by_cases hj : 1 ≤ j ∧ j ≤ s.params.nMotors
  · rw [if_pos hj]
    by_cases hjm : j = m
    · subst hjm
      have : j - 1 < s.results.length := by omega
      simp [this]
    · have : m - 1 ≠ j - 1 := by omega
      simp [hjm, hj, this]
  · rw [if_neg hj, if_neg hj, if_neg]
    rintro rfl
    exact hj hm

/-- A motor other than the one written is as before, in any state. -/
theorem State.result_modifyResult_of_ne (s : State) {m j : Nat} (hne : j ≠ m) (f : MotorResult → MotorResult) :
    (s.modifyResult m f).result j = s.result j := by
  unfold State.modifyResult
  split
  · next hm =>
    simp only [State.result, State.HasMotor, State.setResults_params, State.setResults_results] at *
    by_cases hj : 1 ≤ j ∧ j ≤ s.params.nMotors
    · have : m - 1 ≠ j - 1 := by omega
      simp [hj, this]
    · simp [hj]
  · rfl

/-- Every entry of the changed list is an old one or the change of an old one. -/
theorem mem_modify {α : Type} {f : α → α} {x : α} : ∀ {l : List α} {i : Nat}, x ∈ l.modify i f →
    x ∈ l ∨ ∃ y ∈ l, x = f y
  | [], i, h => by simp at h
  | a :: l, 0, h => by
    rcases List.mem_cons.mp (by simpa using h) with rfl | h
    · exact .inr ⟨a, by simp, rfl⟩
    · exact .inl (by simp [h])
  | a :: l, i + 1, h => by
    rcases List.mem_cons.mp (by simpa using h) with rfl | h
    · exact .inl (by simp)
    · rcases mem_modify h with h | ⟨y, hy, rfl⟩
      · exact .inl (by simp [h])
      · exact .inr ⟨y, by simp [hy], rfl⟩

end Sys2Proof.Machine
end

