-- ==== Sys2Proof/Laws/Parser.lean ====
section
/-!
SUPPORT. Sys2Proof/Laws/Parser.lean: what a parser step can change, and what a run of bytes does from each state
of the parser (Machine/ParserOps.lean).
-/

namespace Sys2Proof.Machine

open Sys2Proof

/-! ## What a parser step can change -/

/-- `readyPush` keeps the response or raises ROVF. -/
theorem State.readyPush_cases (s : State) (r : Response) :
    (s.ready.length < s.params.readyDepth ∧ s.readyPush r = s.setReady (s.ready ++ [r]))
      ∨ (s.params.readyDepth ≤ s.ready.length ∧ s.readyPush r = s.raise .rovf) := by
  unfold State.readyPush
  split
  · exact .inl ⟨‹_›, rfl⟩
  · exact .inr ⟨Nat.le_of_not_lt ‹_›, rfl⟩

/-- A parser step is one of three: it moves the parser, keeps a Response, or raises one flag (CRCERR with its
counter, or ROVF); in the last two the parser goes back to ADDRESS. -/
theorem State.parserStep_cases (s : State) (b : Byte) :
    (∃ p, s.parserStep b = s.setParser p)
      ∨ s.parserStep b = (s.setReady (s.ready ++ [s.parser.response b])).setParser s.parser.stepCrcHi
      ∨ s.parserStep b = (s.raise .rovf).setParser s.parser.stepCrcHi
      ∨ s.parserStep b = ((s.raise .crcErr).countCrcErr).setParser s.parser.stepCrcHi := by
  unfold State.parserStep
  split
  · exact .inl ⟨_, rfl⟩
  · exact .inl ⟨_, rfl⟩
  · exact .inl ⟨_, rfl⟩
  · exact .inl ⟨_, rfl⟩
  · split
    · exact .inl ⟨_, rfl⟩
    · unfold State.finishFrame
      split
      · rcases s.readyPush_cases (s.parser.response b) with ⟨-, h⟩ | ⟨-, h⟩
        · exact .inr (.inl (by rw [h]))
        · exact .inr (.inr (.inl (by rw [h])))
      · exact .inr (.inr (.inr rfl))

/-- The frame of a parser step: only the parser, the ready queue, ERR and CNT_CRC_ERR can change. -/
theorem State.parserStep_frame (s : State) (b : Byte) :
    s.parserStep b = { s with
      parser := (s.parserStep b).parser, ready := (s.parserStep b).ready, err := (s.parserStep b).err
      cntCrcErr := (s.parserStep b).cntCrcErr } := by
  rcases s.parserStep_cases b with ⟨p, h⟩ | h | h | h <;> rw [h] <;> rfl

@[simp] theorem State.feed_nil (s : State) : s.feed [] = s := rfl

@[simp] theorem State.feed_cons (s : State) (b : Byte) (bs : List Byte) :
    s.feed (b :: bs) = (s.parserStep b).feed bs := rfl

theorem State.feed_append (s : State) (bs cs : List Byte) : s.feed (bs ++ cs) = (s.feed bs).feed cs := by
  simp [State.feed]

/-- The frame of a run of bytes. -/
theorem State.feed_frame (s : State) (bs : List Byte) :
    s.feed bs = { s with
      parser := (s.feed bs).parser, ready := (s.feed bs).ready, err := (s.feed bs).err
      cntCrcErr := (s.feed bs).cntCrcErr } := by
  induction bs generalizing s with
  | nil => rfl
  | cons b bs ih =>
    rw [State.feed_cons, ih (s.parserStep b), s.parserStep_frame b]

@[simp] theorem State.feed_params (s : State) (bs : List Byte) : (s.feed bs).params = s.params := by
  rw [State.feed_frame]
@[simp] theorem State.feed_cmd (s : State) (bs : List Byte) : (s.feed bs).cmd = s.cmd := by
  rw [State.feed_frame]
@[simp] theorem State.feed_args (s : State) (bs : List Byte) : (s.feed bs).args = s.args := by
  rw [State.feed_frame]
@[simp] theorem State.feed_crcReg (s : State) (bs : List Byte) : (s.feed bs).crcReg = s.crcReg := by
  rw [State.feed_frame]
@[simp] theorem State.feed_cfgInterval (s : State) (bs : List Byte) : (s.feed bs).cfgInterval = s.cfgInterval := by
  rw [State.feed_frame]
@[simp] theorem State.feed_cfgTimeout (s : State) (bs : List Byte) : (s.feed bs).cfgTimeout = s.cfgTimeout := by
  rw [State.feed_frame]
@[simp] theorem State.feed_timeRef (s : State) (bs : List Byte) : (s.feed bs).timeRef = s.timeRef := by
  rw [State.feed_frame]
@[simp] theorem State.feed_cntTimeout (s : State) (bs : List Byte) : (s.feed bs).cntTimeout = s.cntTimeout := by
  rw [State.feed_frame]
@[simp] theorem State.feed_cntUnsol (s : State) (bs : List Byte) : (s.feed bs).cntUnsol = s.cntUnsol := by
  rw [State.feed_frame]
@[simp] theorem State.feed_cntResolved (s : State) (bs : List Byte) : (s.feed bs).cntResolved = s.cntResolved := by
  rw [State.feed_frame]
@[simp] theorem State.feed_cntTx (s : State) (bs : List Byte) : (s.feed bs).cntTx = s.cntTx := by
  rw [State.feed_frame]
@[simp] theorem State.feed_cntTick (s : State) (bs : List Byte) : (s.feed bs).cntTick = s.cntTick := by
  rw [State.feed_frame]
@[simp] theorem State.feed_pendingWrites (s : State) (bs : List Byte) : (s.feed bs).pendingWrites = s.pendingWrites := by
  rw [State.feed_frame]
@[simp] theorem State.feed_pendingReads (s : State) (bs : List Byte) : (s.feed bs).pendingReads = s.pendingReads := by
  rw [State.feed_frame]
@[simp] theorem State.feed_rb (s : State) (bs : List Byte) : (s.feed bs).rb = s.rb := by
  rw [State.feed_frame]
@[simp] theorem State.feed_results (s : State) (bs : List Byte) : (s.feed bs).results = s.results := by
  rw [State.feed_frame]
@[simp] theorem State.feed_env (s : State) (bs : List Byte) : (s.feed bs).env = s.env := by
  rw [State.feed_frame]

/-- `P_DATA` keeps its size (10_state.md R44). -/
@[simp] theorem State.feed_data_length (s : State) (bs : List Byte) :
    (s.feed bs).parser.data.length = s.parser.data.length := by
  induction bs generalizing s with
  | nil => rfl
  | cons b bs ih =>
    rw [State.feed_cons, ih]
    unfold State.parserStep
    split
    · rfl
    · rfl
    · rfl
    · simp [Parser.stepData]
    · split <;> rfl

/-- The parser raises CRCERR and ROVF and no other flag (42_parser.md R206, R207). -/
theorem State.feed_err_getLsbD (bs : List Byte) {b : Nat} (h3 : b ≠ 3) (h7 : b ≠ 7) (s : State) :
    (s.feed bs).err.getLsbD b = s.err.getLsbD b := by
  induction bs generalizing s with
  | nil => rfl
  | cons x bs ih =>
    rw [State.feed_cons, ih]
    rcases s.parserStep_cases x with ⟨p, h⟩ | h | h | h <;> rw [h] <;> simp [ErrFlag.code, h3, h7]

/-- The parser clears no flag. -/
theorem State.feed_err_mono (bs : List Byte) {b : Nat} (s : State) (h : s.err.getLsbD b = true) :
    (s.feed bs).err.getLsbD b = true := by
  induction bs generalizing s with
  | nil => exact h
  | cons x bs ih =>
    refine ih _ ?_
    rcases s.parserStep_cases x with ⟨p, e⟩ | e | e | e <;> rw [e] <;> simp [h]

/-- One byte acts on the parser, CNT_CRC_ERR and every flag but ROVF by the parser's own registers alone: what the
ready queue holds does not matter to them (42_parser.md R201 to R206). -/
theorem State.parserStep_congr {s t : State} {c : Nat} (h7 : c ≠ 7) (hp : s.parser = t.parser)
    (hc : s.cntCrcErr = t.cntCrcErr) (he : s.err.getLsbD c = t.err.getLsbD c) (b : Byte) :
    (s.parserStep b).parser = (t.parserStep b).parser ∧ (s.parserStep b).cntCrcErr = (t.parserStep b).cntCrcErr
      ∧ (s.parserStep b).err.getLsbD c = (t.parserStep b).err.getLsbD c := by
  have hpush : ∀ (u : State) (r : Response), (u.readyPush r).cntCrcErr = u.cntCrcErr
      ∧ (u.readyPush r).err.getLsbD c = u.err.getLsbD c := by
    intro u r
    rcases u.readyPush_cases r with ⟨-, h⟩ | ⟨-, h⟩ <;> rw [h] <;> simp [ErrFlag.code, h7]
  unfold State.parserStep State.finishFrame
  rw [hp]
  split <;> try exact ⟨rfl, hc, he⟩
  split
  · exact ⟨rfl, hc, he⟩
  · split <;> simp [hpush, hc, he]

/-- A run of bytes acts on the parser, CNT_CRC_ERR and every flag but ROVF by the parser's own registers alone. -/
theorem State.feed_congr (bs : List Byte) {s t : State} {c : Nat} (h7 : c ≠ 7) (hp : s.parser = t.parser)
    (hc : s.cntCrcErr = t.cntCrcErr) (he : s.err.getLsbD c = t.err.getLsbD c) :
    (s.feed bs).parser = (t.feed bs).parser ∧ (s.feed bs).cntCrcErr = (t.feed bs).cntCrcErr
      ∧ (s.feed bs).err.getLsbD c = (t.feed bs).err.getLsbD c := by
  induction bs generalizing s t with
  | nil => exact ⟨hp, hc, he⟩
  | cons b bs ih =>
    obtain ⟨h1, h2, h3⟩ := State.parserStep_congr h7 hp hc he b
    exact ih h1 h2 h3

/-- One byte acts on the parser, the ready queue and the flags by the parser, the ready queue and its capacity
alone (42_parser.md R207). -/
theorem State.parserStep_congr_ready {s t : State} {c : Nat} (hp : s.parser = t.parser) (hr : s.ready = t.ready)
    (hd : s.params.readyDepth = t.params.readyDepth) (he : s.err.getLsbD c = t.err.getLsbD c) (b : Byte) :
    (s.parserStep b).parser = (t.parserStep b).parser ∧ (s.parserStep b).ready = (t.parserStep b).ready
      ∧ (s.parserStep b).err.getLsbD c = (t.parserStep b).err.getLsbD c := by
  unfold State.parserStep State.finishFrame State.readyPush
  rw [hp, hr, hd]
  split <;> try exact ⟨rfl, hr, he⟩
  split
  · exact ⟨rfl, hr, he⟩
  · split
    · split <;> simp [hr, he]
    · simp [hr, he]

/-- A run of bytes acts on the ready queue and the flags by the parser, the ready queue and its capacity alone. -/
theorem State.feed_congr_ready (bs : List Byte) {s t : State} {c : Nat} (hp : s.parser = t.parser)
    (hr : s.ready = t.ready) (hd : s.params.readyDepth = t.params.readyDepth)
    (he : s.err.getLsbD c = t.err.getLsbD c) :
    (s.feed bs).ready = (t.feed bs).ready ∧ (s.feed bs).err.getLsbD c = (t.feed bs).err.getLsbD c := by
  induction bs generalizing s t with
  | nil => exact ⟨hr, he⟩
  | cons b bs ih =>
    obtain ⟨h1, h2, h3⟩ := State.parserStep_congr_ready hp hr hd he b
    refine ih h1 h2 ?_ h3
    rw [s.parserStep_frame b, t.parserStep_frame b]
    exact hd

/-! ## The parser on one frame -/

theorem State.parserStep_address {s : State} (h : s.parser.state = .address) (b : Byte) :
    s.parserStep b = s.setParser (s.parser.stepAddress b) := by
  simp [State.parserStep, h]

theorem State.parserStep_function {s : State} (h : s.parser.state = .function) (b : Byte) :
    s.parserStep b = s.setParser (s.parser.stepFunction b) := by
  simp [State.parserStep, h]

theorem State.parserStep_size {s : State} (h : s.parser.state = .size) (b : Byte) :
    s.parserStep b = s.setParser (s.parser.stepSize b) := by
  simp [State.parserStep, h]

theorem State.parserStep_data {s : State} (h : s.parser.state = .data) (b : Byte) :
    s.parserStep b = s.setParser (s.parser.stepData b) := by
  simp [State.parserStep, h]

theorem State.parserStep_crcLo {s : State} (h : s.parser.state = .crc) (hi : s.parser.idx = 0#8) (b : Byte) :
    s.parserStep b = s.setParser (s.parser.stepCrcLo b) := by
  simp [State.parserStep, h, hi]

theorem State.parserStep_crcHi {s : State} (h : s.parser.state = .crc) (hi : s.parser.idx ≠ 0#8) (b : Byte) :
    s.parserStep b = s.finishFrame b := by
  simp [State.parserStep, h, hi]

@[simp] theorem State.setParser_setParser (s : State) (p q : Parser) : (s.setParser p).setParser q = s.setParser q :=
  rfl

/-- In DATA with exactly `ds` left to come, the bytes `ds` fill `P_DATA` from `P_IDX` on, the running CRC covers
them, and the parser is in CRC (42_parser.md R204). -/
theorem State.feed_data (ds : List Byte) :
    ∀ {s : State}, s.parser.state = .data → ds ≠ [] → s.parser.idx.toNat + ds.length = s.parser.size.toNat →
      s.parser.data.length = 255 →
      ∃ d : List Byte, d.length = 255 ∧ d.take s.parser.size.toNat = s.parser.data.take s.parser.idx.toNat ++ ds ∧
        s.feed ds = s.setParser { s.parser with
          acc := ds.foldl crcStep s.parser.acc, data := d, idx := 0#8, state := .crc } := by
  induction ds with
  | nil => intro s _ h; exact absurd rfl h
  | cons b ds ih =>
    intro s hs _ hn hd
    have hsz := s.parser.size.isLt
    simp only [List.length_cons] at hn
    have hnext : (s.parser.idx + 1#8).toNat = s.parser.idx.toNat + 1 := by
      rw [BitVec.toNat_add]; simp; omega
    rw [State.feed_cons, State.parserStep_data hs]
    have htake : (s.parser.data.set s.parser.idx.toNat b).take (s.parser.idx.toNat + 1)
        = s.parser.data.take s.parser.idx.toNat ++ [b] := by
      rw [List.take_succ_eq_append_getElem (by simp; omega), List.take_set_of_le (Nat.le_refl _)]
      simp
    by_cases hlast : ds = []
    · subst hlast
      have he : s.parser.idx + 1#8 = s.parser.size := by
        apply BitVec.eq_of_toNat_eq; simp at hn; omega
      refine ⟨s.parser.data.set s.parser.idx.toNat b, by simp [hd], ?_, ?_⟩
      · have : s.parser.size.toNat = s.parser.idx.toNat + 1 := by simp at hn; omega
        rw [this, htake]
      · simp [Parser.stepData, he]
    · have hne : s.parser.idx + 1#8 ≠ s.parser.size := by
        intro h
        have := congrArg BitVec.toNat h
        have : 0 < ds.length := List.length_pos_iff.mpr hlast
        omega
      obtain ⟨d, hdl, hdt, hf⟩ := ih (s := s.setParser (s.parser.stepData b))
        (by simp [Parser.stepData, hne]) hlast
        (by simp only [State.setParser_parser, Parser.stepData, hne, if_false]; omega)
        (by simp [Parser.stepData, hd])
      refine ⟨d, hdl, ?_, ?_⟩
      · have h1 : (s.setParser (s.parser.stepData b)).parser.size = s.parser.size := rfl
        rw [h1] at hdt
        rw [hdt]
        simp only [State.setParser_parser, Parser.stepData, hne, if_false, hnext, htake]
        simp
      · rw [hf]
        simp [Parser.stepData]

/-- From ADDRESS, a station, a function, a size and that many data bytes bring the parser to the trailer of that
frame, with the CRC of all of them (42_parser.md R201 to R204). -/
theorem State.feed_body {s : State} (hs : s.parser.state = .address) (hd : s.parser.data.length = 255)
    (st fn : Byte) (ds : List Byte) (hn : ds.length ≤ 255) :
    ∃ d : List Byte, d.length = 255 ∧ d.take ds.length = ds ∧
      s.feed ([st, fn, BitVec.ofNat 8 ds.length] ++ ds) = s.setParser { s.parser with
        acc := crc16 ([st, fn, BitVec.ofNat 8 ds.length] ++ ds), station := st, func := fn
        size := BitVec.ofNat 8 ds.length, data := d, idx := 0#8, state := .crc } := by
  have hsize : (BitVec.ofNat 8 ds.length).toNat = ds.length := by simp; omega
  simp only [List.cons_append, List.nil_append, State.feed_cons]
  rw [State.parserStep_address hs,
    State.parserStep_function (s := s.setParser (s.parser.stepAddress st)) rfl,
    State.parserStep_size (s := (s.setParser (s.parser.stepAddress st)).setParser _) rfl]
  simp only [State.setParser_setParser, State.setParser_parser]
  by_cases h0 : ds = []
  · subst h0
    exact ⟨s.parser.data, hd, by simp, rfl⟩
  · have hz : BitVec.ofNat 8 ds.length ≠ 0#8 := by
      intro h
      have := congrArg BitVec.toNat h
      rw [hsize] at this
      exact h0 (List.length_eq_zero_iff.mp (by simpa using this))
    obtain ⟨d, hdl, hdt, hf⟩ := State.feed_data ds
      (s := s.setParser (((s.parser.stepAddress st).stepFunction fn).stepSize (BitVec.ofNat 8 ds.length)))
      (by simp [Parser.stepSize, hz]) h0 (by simp [Parser.stepSize, hsize])
      (by simpa [Parser.stepSize, Parser.stepFunction, Parser.stepAddress] using hd)
    refine ⟨d, hdl, ?_, ?_⟩
    · simpa [Parser.stepSize, Parser.stepFunction, Parser.stepAddress, Nat.mod_eq_of_lt (show ds.length < 256 by omega)]
        using hdt
    · rw [hf]
      simp [Parser.stepSize, Parser.stepFunction, Parser.stepAddress, crc16]

/-- The trailer of a frame in CRC: the two bytes end the frame (42_parser.md R205, R206). -/
theorem State.feed_trailer {s : State} (hs : s.parser.state = .crc) (hi : s.parser.idx = 0#8) (lo hiB : Byte) :
    s.feed [lo, hiB] = (s.setParser (s.parser.stepCrcLo lo)).finishFrame hiB := by
  simp only [State.feed_cons, State.feed_nil]
  rw [State.parserStep_crcLo hs hi, State.parserStep_crcHi (by simpa [Parser.stepCrcLo] using hs)
    (by simp [Parser.stepCrcLo])]

end Sys2Proof.Machine
end

