-- ==== Sys2Proof/Laws/Scheduler.lean ====
section
/-!
SUPPORT. Sys2Proof/Laws/Scheduler.lean: what each part of a tick can change (Machine/Scheduler.lean): the line
step, correlation, the drain of the ready queue, and the tick as a whole.
-/

namespace Sys2Proof.Machine

open Sys2Proof

/-! ## The line step (43_scheduler.md R252 to R254) -/

/-- Which of the steps 2 to 4 runs. -/
theorem State.lineStep_cases (s : State) :
    (∃ h rest, s.pendingReads = h :: rest ∧ h.state = .created ∧ s.lineStep = s.sendRead h rest)
      ∨ (∃ h rest, s.pendingReads = h :: rest ∧ h.state = .awaitingResponse ∧ s.lineStep = s.awaitRead h rest)
      ∨ (∃ body rest, s.pendingReads = [] ∧ s.pendingWrites = body :: rest ∧ s.lineStep = s.sendWrite body rest)
      ∨ (s.pendingReads = [] ∧ s.pendingWrites = [] ∧ s.lineStep = s) := by
  unfold State.lineStep
  split
  · next h rest hr =>
    split
    · exact .inl ⟨h, rest, hr, ‹_›, rfl⟩
    · exact .inr (.inl ⟨h, rest, hr, ‹_›, rfl⟩)
  · next hr =>
    split
    · next body rest hw => exact .inr (.inr (.inl ⟨body, rest, hr, hw, rfl⟩))
    · next hw => exact .inr (.inr (.inr ⟨hr, hw, rfl⟩))

/-- `awaitRead` counts, or drops the head. -/
theorem State.awaitRead_cases (s : State) (h : PendingRequest) (rest : List PendingRequest) :
    (h.timeoutTicks ≤ h.ticksWaited + 1#32 ∧
        s.awaitRead h rest = ((s.setReads rest).raise .timeout).countTimeout)
      ∨ (h.ticksWaited + 1#32 < h.timeoutTicks ∧
        s.awaitRead h rest = s.setReads ({ h with ticksWaited := h.ticksWaited + 1#32 } :: rest)) := by
  by_cases hle : h.timeoutTicks ≤ h.ticksWaited + 1#32
  · exact .inl ⟨hle, if_pos hle⟩
  · exact .inr ⟨BitVec.not_le.mp hle, if_neg hle⟩

/-- The frame of the line step. -/
theorem State.lineStep_frame (s : State) :
    s.lineStep = { s with
      err := s.lineStep.err, cntTimeout := s.lineStep.cntTimeout, cntTx := s.lineStep.cntTx
      pendingWrites := s.lineStep.pendingWrites, pendingReads := s.lineStep.pendingReads
      env := { s.env with tx := s.lineStep.env.tx } } := by
  rcases s.lineStep_cases with ⟨h, rest, -, -, e⟩ | ⟨h, rest, -, -, e⟩ | ⟨body, rest, -, -, e⟩ | ⟨-, -, e⟩
  · rw [e]; rfl
  · rw [e]
    rcases s.awaitRead_cases h rest with ⟨-, e'⟩ | ⟨-, e'⟩ <;> rw [e'] <;> rfl
  · rw [e]; rfl
  · rw [e]

@[simp] theorem State.lineStep_params (s : State) : s.lineStep.params = s.params := by
  rw [State.lineStep_frame]
@[simp] theorem State.lineStep_cmd (s : State) : s.lineStep.cmd = s.cmd := by
  rw [State.lineStep_frame]
@[simp] theorem State.lineStep_args (s : State) : s.lineStep.args = s.args := by
  rw [State.lineStep_frame]
@[simp] theorem State.lineStep_crcReg (s : State) : s.lineStep.crcReg = s.crcReg := by
  rw [State.lineStep_frame]
@[simp] theorem State.lineStep_cfgInterval (s : State) : s.lineStep.cfgInterval = s.cfgInterval := by
  rw [State.lineStep_frame]
@[simp] theorem State.lineStep_cfgTimeout (s : State) : s.lineStep.cfgTimeout = s.cfgTimeout := by
  rw [State.lineStep_frame]
@[simp] theorem State.lineStep_timeRef (s : State) : s.lineStep.timeRef = s.timeRef := by
  rw [State.lineStep_frame]
@[simp] theorem State.lineStep_cntCrcErr (s : State) : s.lineStep.cntCrcErr = s.cntCrcErr := by
  rw [State.lineStep_frame]
@[simp] theorem State.lineStep_cntUnsol (s : State) : s.lineStep.cntUnsol = s.cntUnsol := by
  rw [State.lineStep_frame]
@[simp] theorem State.lineStep_cntResolved (s : State) : s.lineStep.cntResolved = s.cntResolved := by
  rw [State.lineStep_frame]
@[simp] theorem State.lineStep_cntTick (s : State) : s.lineStep.cntTick = s.cntTick := by
  rw [State.lineStep_frame]
@[simp] theorem State.lineStep_parser (s : State) : s.lineStep.parser = s.parser := by
  rw [State.lineStep_frame]
@[simp] theorem State.lineStep_ready (s : State) : s.lineStep.ready = s.ready := by
  rw [State.lineStep_frame]
@[simp] theorem State.lineStep_rb (s : State) : s.lineStep.rb = s.rb := by
  rw [State.lineStep_frame]
@[simp] theorem State.lineStep_results (s : State) : s.lineStep.results = s.results := by
  rw [State.lineStep_frame]
@[simp] theorem State.lineStep_env_isOpen (s : State) : s.lineStep.env.isOpen = s.env.isOpen := by
  rw [State.lineStep_frame]
@[simp] theorem State.lineStep_env_rx (s : State) : s.lineStep.env.rx = s.env.rx := by
  rw [State.lineStep_frame]
@[simp] theorem State.lineStep_env_reads (s : State) : s.lineStep.env.reads = s.env.reads := by
  rw [State.lineStep_frame]
@[simp] theorem State.lineStep_env_agenda (s : State) : s.lineStep.env.agenda = s.env.agenda := by
  rw [State.lineStep_frame]

/-- The line step raises TIMEOUT and no other flag (43_scheduler.md R253). -/
theorem State.lineStep_err_getLsbD (s : State) {b : Nat} (h4 : b ≠ 4) :
    s.lineStep.err.getLsbD b = s.err.getLsbD b := by
  rcases s.lineStep_cases with ⟨h, rest, -, -, e⟩ | ⟨h, rest, -, -, e⟩ | ⟨body, rest, -, -, e⟩ | ⟨-, -, e⟩
  · rw [e]; rfl
  · rw [e]
    rcases s.awaitRead_cases h rest with ⟨-, e'⟩ | ⟨-, e'⟩ <;> rw [e'] <;> simp [ErrFlag.code, h4]
  · rw [e]; rfl
  · rw [e]

/-- The line step clears no flag. -/
theorem State.lineStep_err_mono {s : State} {b : Nat} (hb : s.err.getLsbD b = true) :
    s.lineStep.err.getLsbD b = true := by
  rcases s.lineStep_cases with ⟨h, rest, -, -, e⟩ | ⟨h, rest, -, -, e⟩ | ⟨body, rest, -, -, e⟩ | ⟨-, -, e⟩
  · rw [e]; exact hb
  · rw [e]
    rcases s.awaitRead_cases h rest with ⟨-, e'⟩ | ⟨-, e'⟩ <;> rw [e'] <;> simp [hb]
  · rw [e]; exact hb
  · rw [e]; exact hb

/-! ## Correlation (43_scheduler.md R256, R257) -/

/-- `modifyResult` changes the result registers of one motor, or nothing. -/
theorem State.modifyResult_frame (s : State) (m : Nat) (f : MotorResult → MotorResult) :
    s.modifyResult m f = { s with results := (s.modifyResult m f).results } := by
  unfold State.modifyResult
  split <;> rfl

@[simp] theorem State.modifyResult_results_length (s : State) (m : Nat) (f : MotorResult → MotorResult) :
    (s.modifyResult m f).results.length = s.results.length := by
  unfold State.modifyResult
  split <;> simp

/-- `applyValue` changes the result registers only. -/
theorem State.applyValue_frame (s : State) (m : Nat) (k : RegKind) (v : Word) :
    s.applyValue m k v = { s with results := (s.applyValue m k v).results } := by
  cases k <;> exact s.modifyResult_frame m _

/-- What `Correlate` does. -/
theorem State.correlate_cases (s : State) (r : Response) :
    (s.pendingReads = [] ∧ s.correlate r = s.countUnsol)
      ∨ (∃ h rest, s.pendingReads = h :: rest ∧ decode32 r = none ∧
          s.correlate r = ((s.setReads rest).raise .badLen).countResolved)
      ∨ (∃ h rest v, s.pendingReads = h :: rest ∧ decode32 r = some v ∧
          s.correlate r = ((s.setReads rest).applyValue h.motorId.toNat h.kind v).countResolved) := by
  unfold State.correlate
  split
  · exact .inl ⟨‹_›, rfl⟩
  · next h rest hr =>
    cases hd : decode32 r with
    | none => exact .inr (.inl ⟨h, rest, hr, rfl, rfl⟩)
    | some v => exact .inr (.inr ⟨h, rest, v, hr, rfl, rfl⟩)

/-- The frame of `Correlate`. -/
theorem State.correlate_frame (s : State) (r : Response) :
    s.correlate r = { s with
      err := (s.correlate r).err, cntUnsol := (s.correlate r).cntUnsol
      cntResolved := (s.correlate r).cntResolved, pendingReads := (s.correlate r).pendingReads
      results := (s.correlate r).results } := by
  rcases s.correlate_cases r with ⟨-, e⟩ | ⟨h, rest, -, -, e⟩ | ⟨h, rest, v, -, -, e⟩
  · rw [e]; rfl
  · rw [e]; rfl
  · rw [e, State.applyValue_frame]; rfl

/-- `Correlate` resolves the head, whatever the Response holds. -/
@[simp] theorem State.correlate_pendingReads (s : State) (r : Response) :
    (s.correlate r).pendingReads = s.pendingReads.tail := by
  rcases s.correlate_cases r with ⟨hr, e⟩ | ⟨h, rest, hr, -, e⟩ | ⟨h, rest, v, hr, -, e⟩
  · simp [e, hr]
  · simp [e, hr]
  · rw [e, State.applyValue_frame]; simp [hr]

@[simp] theorem State.correlate_params (s : State) (r : Response) : (s.correlate r).params = s.params := by
  rw [State.correlate_frame]
@[simp] theorem State.correlate_cmd (s : State) (r : Response) : (s.correlate r).cmd = s.cmd := by
  rw [State.correlate_frame]
@[simp] theorem State.correlate_args (s : State) (r : Response) : (s.correlate r).args = s.args := by
  rw [State.correlate_frame]
@[simp] theorem State.correlate_crcReg (s : State) (r : Response) : (s.correlate r).crcReg = s.crcReg := by
  rw [State.correlate_frame]
@[simp] theorem State.correlate_cfgInterval (s : State) (r : Response) : (s.correlate r).cfgInterval = s.cfgInterval := by
  rw [State.correlate_frame]
@[simp] theorem State.correlate_cfgTimeout (s : State) (r : Response) : (s.correlate r).cfgTimeout = s.cfgTimeout := by
  rw [State.correlate_frame]
@[simp] theorem State.correlate_timeRef (s : State) (r : Response) : (s.correlate r).timeRef = s.timeRef := by
  rw [State.correlate_frame]
@[simp] theorem State.correlate_cntCrcErr (s : State) (r : Response) : (s.correlate r).cntCrcErr = s.cntCrcErr := by
  rw [State.correlate_frame]
@[simp] theorem State.correlate_cntTimeout (s : State) (r : Response) : (s.correlate r).cntTimeout = s.cntTimeout := by
  rw [State.correlate_frame]
@[simp] theorem State.correlate_cntTx (s : State) (r : Response) : (s.correlate r).cntTx = s.cntTx := by
  rw [State.correlate_frame]
@[simp] theorem State.correlate_cntTick (s : State) (r : Response) : (s.correlate r).cntTick = s.cntTick := by
  rw [State.correlate_frame]
@[simp] theorem State.correlate_pendingWrites (s : State) (r : Response) : (s.correlate r).pendingWrites = s.pendingWrites := by
  rw [State.correlate_frame]
@[simp] theorem State.correlate_parser (s : State) (r : Response) : (s.correlate r).parser = s.parser := by
  rw [State.correlate_frame]
@[simp] theorem State.correlate_ready (s : State) (r : Response) : (s.correlate r).ready = s.ready := by
  rw [State.correlate_frame]
@[simp] theorem State.correlate_rb (s : State) (r : Response) : (s.correlate r).rb = s.rb := by
  rw [State.correlate_frame]
@[simp] theorem State.correlate_env (s : State) (r : Response) : (s.correlate r).env = s.env := by
  rw [State.correlate_frame]

/-! ## The drain of the ready queue (43_scheduler.md R255) -/

@[simp] theorem State.drainReady_nil (s : State) : s.drainReady [] = s.setReady [] := rfl

@[simp] theorem State.drainReady_cons (s : State) (r : Response) (rs : List Response) :
    s.drainReady (r :: rs) = ((s.setReady rs).correlate r).drainReady rs := rfl

/-- The frame of the drain. -/
theorem State.drainReady_frame (s : State) (rs : List Response) :
    s.drainReady rs = { s with
      err := (s.drainReady rs).err, cntUnsol := (s.drainReady rs).cntUnsol
      cntResolved := (s.drainReady rs).cntResolved, pendingReads := (s.drainReady rs).pendingReads
      results := (s.drainReady rs).results, ready := [] } := by
  induction rs generalizing s with
  | nil => rfl
  | cons r rs ih =>
    rw [State.drainReady_cons, ih, State.correlate_frame]
    rfl

@[simp] theorem State.drainReady_params (s : State) (rs : List Response) : (s.drainReady rs).params = s.params := by
  rw [State.drainReady_frame]
@[simp] theorem State.drainReady_cmd (s : State) (rs : List Response) : (s.drainReady rs).cmd = s.cmd := by
  rw [State.drainReady_frame]
@[simp] theorem State.drainReady_args (s : State) (rs : List Response) : (s.drainReady rs).args = s.args := by
  rw [State.drainReady_frame]
@[simp] theorem State.drainReady_crcReg (s : State) (rs : List Response) : (s.drainReady rs).crcReg = s.crcReg := by
  rw [State.drainReady_frame]
@[simp] theorem State.drainReady_cfgInterval (s : State) (rs : List Response) : (s.drainReady rs).cfgInterval = s.cfgInterval := by
  rw [State.drainReady_frame]
@[simp] theorem State.drainReady_cfgTimeout (s : State) (rs : List Response) : (s.drainReady rs).cfgTimeout = s.cfgTimeout := by
  rw [State.drainReady_frame]
@[simp] theorem State.drainReady_timeRef (s : State) (rs : List Response) : (s.drainReady rs).timeRef = s.timeRef := by
  rw [State.drainReady_frame]
@[simp] theorem State.drainReady_cntCrcErr (s : State) (rs : List Response) : (s.drainReady rs).cntCrcErr = s.cntCrcErr := by
  rw [State.drainReady_frame]
@[simp] theorem State.drainReady_cntTimeout (s : State) (rs : List Response) : (s.drainReady rs).cntTimeout = s.cntTimeout := by
  rw [State.drainReady_frame]
@[simp] theorem State.drainReady_cntTx (s : State) (rs : List Response) : (s.drainReady rs).cntTx = s.cntTx := by
  rw [State.drainReady_frame]
@[simp] theorem State.drainReady_cntTick (s : State) (rs : List Response) : (s.drainReady rs).cntTick = s.cntTick := by
  rw [State.drainReady_frame]
@[simp] theorem State.drainReady_pendingWrites (s : State) (rs : List Response) : (s.drainReady rs).pendingWrites = s.pendingWrites := by
  rw [State.drainReady_frame]
@[simp] theorem State.drainReady_parser (s : State) (rs : List Response) : (s.drainReady rs).parser = s.parser := by
  rw [State.drainReady_frame]
@[simp] theorem State.drainReady_rb (s : State) (rs : List Response) : (s.drainReady rs).rb = s.rb := by
  rw [State.drainReady_frame]
@[simp] theorem State.drainReady_env (s : State) (rs : List Response) : (s.drainReady rs).env = s.env := by
  rw [State.drainReady_frame]

@[simp] theorem State.drainReady_ready (s : State) (rs : List Response) : (s.drainReady rs).ready = [] := by
  rw [State.drainReady_frame]

/-- Each Response of the queue resolves one read, in order. -/
@[simp] theorem State.drainReady_pendingReads (s : State) (rs : List Response) :
    (s.drainReady rs).pendingReads = s.pendingReads.drop rs.length := by
  induction rs generalizing s with
  | nil => simp
  | cons r rs ih => simp [ih]

/-- `Correlate` raises BADLEN, for a Response without a value that resolves a read, and no other flag
(43_scheduler.md R256). -/
theorem State.correlate_err_getLsbD (s : State) (r : Response) (b : Nat) :
    (s.correlate r).err.getLsbD b
      = (s.err.getLsbD b || decide (b = 5 ∧ s.pendingReads ≠ [] ∧ decode32 r = none)) := by
  rcases s.correlate_cases r with ⟨hr, e⟩ | ⟨h, rest, hr, hd, e⟩ | ⟨h, rest, v, hr, hd, e⟩
  · rw [e]; simp [hr]
  · rw [e]; by_cases hb : b = 5 <;> simp [hr, hd, hb, ErrFlag.code]
  · rw [e, State.applyValue_frame]; simp [hd]

/-- The drain raises BADLEN and no other flag. -/
theorem State.drainReady_err_getLsbD (rs : List Response) {b : Nat} (h5 : b ≠ 5) (s : State) :
    (s.drainReady rs).err.getLsbD b = s.err.getLsbD b := by
  induction rs generalizing s with
  | nil => rfl
  | cons r rs ih => rw [State.drainReady_cons, ih, State.correlate_err_getLsbD]; simp [h5]

/-- The drain clears no flag. -/
theorem State.drainReady_err_mono (rs : List Response) {s : State} {b : Nat} (hb : s.err.getLsbD b = true) :
    (s.drainReady rs).err.getLsbD b = true := by
  induction rs generalizing s with
  | nil => exact hb
  | cons r rs ih =>
    rw [State.drainReady_cons]
    exact ih (by rw [State.correlate_err_getLsbD]; simp [hb])

/-! ## Step 5 and the tick (43_scheduler.md R250) -/

/-- The frame of step 5. -/
theorem State.receiveStep_frame (s : State) :
    s.receiveStep = { s with
      err := s.receiveStep.err, cntCrcErr := s.receiveStep.cntCrcErr, cntUnsol := s.receiveStep.cntUnsol
      cntResolved := s.receiveStep.cntResolved, pendingReads := s.receiveStep.pendingReads
      parser := s.receiveStep.parser, ready := [], results := s.receiveStep.results
      env := { s.env with rx := [] } } := by
  unfold State.receiveStep
  simp only []
  rw [State.drainReady_frame, State.feed_frame]
  rfl

@[simp] theorem State.receiveStep_params (s : State) : s.receiveStep.params = s.params := by
  rw [State.receiveStep_frame]
@[simp] theorem State.receiveStep_cmd (s : State) : s.receiveStep.cmd = s.cmd := by
  rw [State.receiveStep_frame]
@[simp] theorem State.receiveStep_args (s : State) : s.receiveStep.args = s.args := by
  rw [State.receiveStep_frame]
@[simp] theorem State.receiveStep_crcReg (s : State) : s.receiveStep.crcReg = s.crcReg := by
  rw [State.receiveStep_frame]
@[simp] theorem State.receiveStep_cfgInterval (s : State) : s.receiveStep.cfgInterval = s.cfgInterval := by
  rw [State.receiveStep_frame]
@[simp] theorem State.receiveStep_cfgTimeout (s : State) : s.receiveStep.cfgTimeout = s.cfgTimeout := by
  rw [State.receiveStep_frame]
@[simp] theorem State.receiveStep_timeRef (s : State) : s.receiveStep.timeRef = s.timeRef := by
  rw [State.receiveStep_frame]
@[simp] theorem State.receiveStep_cntTimeout (s : State) : s.receiveStep.cntTimeout = s.cntTimeout := by
  rw [State.receiveStep_frame]
@[simp] theorem State.receiveStep_cntTx (s : State) : s.receiveStep.cntTx = s.cntTx := by
  rw [State.receiveStep_frame]
@[simp] theorem State.receiveStep_cntTick (s : State) : s.receiveStep.cntTick = s.cntTick := by
  rw [State.receiveStep_frame]
@[simp] theorem State.receiveStep_pendingWrites (s : State) : s.receiveStep.pendingWrites = s.pendingWrites := by
  rw [State.receiveStep_frame]
@[simp] theorem State.receiveStep_rb (s : State) : s.receiveStep.rb = s.rb := by
  rw [State.receiveStep_frame]
@[simp] theorem State.receiveStep_ready (s : State) : s.receiveStep.ready = [] := by
  rw [State.receiveStep_frame]
@[simp] theorem State.receiveStep_env (s : State) : s.receiveStep.env = { s.env with rx := [] } := by
  rw [State.receiveStep_frame]

/-- Step 5 on a silent line: nothing but the emptied queues (43_scheduler.md R255). -/
theorem State.receiveStep_silent {s : State} (hrx : s.env.rx = []) (hready : s.ready = []) :
    s.receiveStep = s := by
  obtain ⟨_, _, _, _, _, _, _, _, _, _, _, _, _, _, _, _, _, _, _, _, ⟨_, rx, _, _, _⟩⟩ := s
  cases hrx
  cases hready
  rfl

theorem State.tick_closed {s : State} (h : s.env.isOpen = false) : s.tick = s := by
  simp [State.tick, h]

theorem State.tick_open {s : State} (h : s.env.isOpen = true) :
    s.tick = s.countTick.lineStep.receiveStep := by
  simp [State.tick, h]

theorem State.tick_silent {s : State} (h : s.env.isOpen = true) (hrx : s.env.rx = []) (hready : s.ready = []) :
    s.tick = s.countTick.lineStep := by
  rw [State.tick_open h, State.receiveStep_silent] <;> simpa

/-- The frame of a tick. -/
theorem State.tick_frame (s : State) :
    s.tick = { s with
      err := s.tick.err, cntCrcErr := s.tick.cntCrcErr, cntTimeout := s.tick.cntTimeout
      cntUnsol := s.tick.cntUnsol, cntResolved := s.tick.cntResolved, cntTx := s.tick.cntTx
      cntTick := s.tick.cntTick, pendingWrites := s.tick.pendingWrites, pendingReads := s.tick.pendingReads
      parser := s.tick.parser, ready := s.tick.ready, results := s.tick.results
      env := { s.env with rx := s.tick.env.rx, tx := s.tick.env.tx } } := by
  by_cases h : s.env.isOpen = true
  · rw [State.tick_open h, State.receiveStep_frame, State.lineStep_frame]
    rfl
  · rw [State.tick_closed (by simpa using h)]

@[simp] theorem State.tick_params (s : State) : s.tick.params = s.params := by
  rw [State.tick_frame]
@[simp] theorem State.tick_cmd (s : State) : s.tick.cmd = s.cmd := by
  rw [State.tick_frame]
@[simp] theorem State.tick_args (s : State) : s.tick.args = s.args := by
  rw [State.tick_frame]
@[simp] theorem State.tick_crcReg (s : State) : s.tick.crcReg = s.crcReg := by
  rw [State.tick_frame]
@[simp] theorem State.tick_cfgInterval (s : State) : s.tick.cfgInterval = s.cfgInterval := by
  rw [State.tick_frame]
@[simp] theorem State.tick_cfgTimeout (s : State) : s.tick.cfgTimeout = s.cfgTimeout := by
  rw [State.tick_frame]
@[simp] theorem State.tick_timeRef (s : State) : s.tick.timeRef = s.timeRef := by
  rw [State.tick_frame]
@[simp] theorem State.tick_rb (s : State) : s.tick.rb = s.rb := by
  rw [State.tick_frame]
@[simp] theorem State.tick_env_isOpen (s : State) : s.tick.env.isOpen = s.env.isOpen := by
  rw [State.tick_frame]
@[simp] theorem State.tick_env_reads (s : State) : s.tick.env.reads = s.env.reads := by
  rw [State.tick_frame]
@[simp] theorem State.tick_env_agenda (s : State) : s.tick.env.agenda = s.env.agenda := by
  rw [State.tick_frame]

/-- An open tick as its two parts: the line step, then the waiting bytes through the parser and the Responses
through `Correlate` (43_scheduler.md R250, R255). -/
theorem State.tick_eq_drainReady {s : State} (h : s.env.isOpen = true) :
    s.tick = ((s.countTick.lineStep.clearRx).feed s.env.rx).drainReady
      ((s.countTick.lineStep.clearRx).feed s.env.rx).ready := by
  rw [State.tick_open h, State.receiveStep]
  simp

/-- A tick raises CRCERR, TIMEOUT, BADLEN and ROVF and no other flag (43_scheduler.md R250). -/
theorem State.tick_err_getLsbD (s : State) {b : Nat} (h3 : b ≠ 3) (h4 : b ≠ 4) (h5 : b ≠ 5) (h7 : b ≠ 7) :
    s.tick.err.getLsbD b = s.err.getLsbD b := by
  by_cases h : s.env.isOpen = true
  · rw [State.tick_eq_drainReady h, State.drainReady_err_getLsbD _ h5, State.feed_err_getLsbD _ h3 h7]
    exact State.lineStep_err_getLsbD s.countTick h4
  · rw [State.tick_closed (by simpa using h)]

/-- A tick clears no flag. -/
theorem State.tick_err_mono {s : State} {b : Nat} (hb : s.err.getLsbD b = true) : s.tick.err.getLsbD b = true := by
  by_cases h : s.env.isOpen = true
  · rw [State.tick_eq_drainReady h]
    exact State.drainReady_err_mono _ (State.feed_err_mono _ _ (State.lineStep_err_mono (s := s.countTick) hb))
  · rwa [State.tick_closed (by simpa using h)]

/-- UPDATE is nothing, or a tick with the reference point moved. -/
theorem State.updateAt_cases (s : State) (now : Word) :
    (¬ s.fires now ∧ s.updateAt now = s)
      ∨ (s.fires now ∧ s.updateAt now = (s.setTimeRef (s.caughtUp now)).tick) := by
  unfold State.updateAt
  split
  · exact .inr ⟨‹_›, rfl⟩
  · exact .inl ⟨‹_›, rfl⟩

end Sys2Proof.Machine
end

