-- ==== Sys2Proof/Laws/Inv.lean ====
section
/-!
SUPPORT. Sys2Proof/Laws/Inv.lean: each shared operation keeps the invariant of Safety.lean.
-/

namespace Sys2Proof.Machine

open Sys2Proof

/-! ## Frame bodies -/

/-- What `body_write` builds from 1 to 60 values is a frame body (41_frame_codec.md R151). -/
theorem bodyOk_bodyWrite (st : Byte) (addr : Half) {vals : List Word} (h1 : 1 ≤ vals.length)
    (h2 : vals.length ≤ 60) : BodyOk (bodyWrite st addr vals) := by
  have hn : (BitVec.ofNat 8 (4 * vals.length)).toNat = 4 * vals.length := by
    simp only [BitVec.toNat_ofNat]
    omega
  have h6 : (bodyWrite st addr vals).getD 6 0#8 = BitVec.ofNat 8 (4 * vals.length) := rfl
  have h45 : half16 ((bodyWrite st addr vals).getD 4 0#8) ((bodyWrite st addr vals).getD 5 0#8)
      = BitVec.ofNat 16 (2 * vals.length) := half16_hi8_lo8 _
  rw [BodyOk, bodyWrite_length, h6, h45, hn, show 4 * vals.length / 2 = 2 * vals.length by omega]
  exact ⟨by omega, by omega, rfl, rfl, by omega, rfl⟩

/-! ## The parser -/

/-- Every parser step keeps the parser's invariant. -/
theorem State.parserOk_parserStep {s : State} (h : s.parser.Ok) (b : Byte) : (s.parserStep b).parser.Ok := by
  obtain ⟨hd, hi, ha⟩ := h
  unfold State.parserStep
  split
  · next hs =>
    simp only [Parser.idxOk, hs, beq_iff_eq] at hi
    simp [Parser.Ok, Parser.stepAddress, Parser.idxOk, Parser.covered, hd, hi, crc16]
  · next hs =>
    simp only [Parser.idxOk, hs, beq_iff_eq] at hi
    have ha := ha (by simp [hs])
    simp only [Parser.covered, hs] at ha
    simp [Parser.Ok, Parser.stepFunction, Parser.idxOk, Parser.covered, hd, hi, ha, crc16]
  · next hs =>
    have ha := ha (by simp [hs])
    simp only [Parser.covered, hs] at ha
    by_cases hb : b = 0#8
    · simp [Parser.Ok, Parser.stepSize, Parser.idxOk, Parser.covered, hd, ha, crc16, hb]
    · have : 0 < b.toNat := by
        rcases Nat.eq_zero_or_pos b.toNat with h | h
        · exact absurd (BitVec.eq_of_toNat_eq h) hb
        · exact h
      simp [Parser.Ok, Parser.stepSize, Parser.idxOk, Parser.covered, hd, ha, crc16, hb, this]
  · next hs =>
    simp only [Parser.idxOk, hs, decide_eq_true_eq] at hi
    have ha := ha (by simp [hs])
    simp only [Parser.covered, hs] at ha
    have hsz := s.parser.size.isLt
    have hnext : (s.parser.idx + 1#8).toNat = s.parser.idx.toNat + 1 := by
      rw [BitVec.toNat_add]; simp; omega
    have htake : (s.parser.data.set s.parser.idx.toNat b).take (s.parser.idx.toNat + 1)
        = s.parser.data.take s.parser.idx.toNat ++ [b] := by
      rw [List.take_succ_eq_append_getElem (by simp; omega), List.take_set_of_le (Nat.le_refl _)]
      simp
    by_cases he : s.parser.idx + 1#8 = s.parser.size
    · have hsize : s.parser.size.toNat = s.parser.idx.toNat + 1 := by rw [← he, hnext]
      simp [Parser.Ok, Parser.stepData, Parser.idxOk, Parser.covered, hd, ha, he, hsize, htake, crc16]
    · have hlt : s.parser.idx.toNat + 1 < s.parser.size.toNat := by
        have : s.parser.idx.toNat + 1 ≠ s.parser.size.toNat := by
          intro h
          exact he (BitVec.eq_of_toNat_eq (by rw [hnext, h]))
        omega
      simp only [State.setParser_parser, Parser.Ok, Parser.stepData, Parser.idxOk, Parser.covered, he, if_false,
        hnext, htake, ha, List.length_set, hd, decide_eq_true_eq, true_and]
      refine ⟨hlt, fun _ => ?_⟩
      rw [← List.append_assoc, crc16_snoc]
  · next hs =>
    split
    · next h0 =>
      have ha := ha (by simp [hs])
      simp only [Parser.covered, hs] at ha
      simp [Parser.Ok, Parser.stepCrcLo, Parser.idxOk, Parser.covered, hd, hs, ha]
    · simp [State.finishFrame, Parser.Ok, Parser.stepCrcHi, Parser.idxOk, hd]

theorem State.parserOk_feed {s : State} (h : s.parser.Ok) (bs : List Byte) : (s.feed bs).parser.Ok := by
  induction bs generalizing s with
  | nil => exact h
  | cons b bs ih => exact ih (State.parserOk_parserStep h b)

/-! ## Result registers -/

theorem State.resultOk_applyValue {s : State} (h : ∀ r ∈ s.results, ResultOk r) (m : Nat) (k : RegKind) (v : Word) :
    ∀ r ∈ (s.applyValue m k v).results, ResultOk r := by
  have key : ∀ f : MotorResult → MotorResult, (∀ r, ResultOk r → ResultOk (f r)) →
      ∀ r ∈ (s.modifyResult m f).results, ResultOk r := by
    intro f hf r hr
    unfold State.modifyResult at hr
    split at hr
    · rcases mem_modify hr with hr | ⟨y, hy, rfl⟩
      · exact h r hr
      · exact hf y (h y hy)
    · exact h r hr
  cases k
  · exact key _ fun r hr => ⟨by simp, hr.2⟩
  · exact key _ fun r hr => ⟨hr.1, by simp⟩

/-! ## Queues -/

theorem OnlyHeadAwaits.tail {h : PendingRequest} {q : List PendingRequest} (hq : OnlyHeadAwaits (h :: q)) :
    OnlyHeadAwaits q := fun r hr => hq r (List.mem_of_mem_tail hr)

theorem OnlyHeadAwaits.drop {q : List PendingRequest} (hq : OnlyHeadAwaits q) (n : Nat) :
    OnlyHeadAwaits (q.drop n) := by
  induction n generalizing q with
  | zero => simpa using hq
  | succ n ih =>
    cases q with
    | nil => simp [OnlyHeadAwaits]
    | cons h q => exact ih hq.tail

theorem OnlyHeadAwaits.snoc {q : List PendingRequest} (hq : OnlyHeadAwaits q) {r : PendingRequest}
    (hr : r.state = .created) : OnlyHeadAwaits (q ++ [r]) := by
  cases q with
  | nil => simp [OnlyHeadAwaits]
  | cons h q =>
    intro x hx
    rcases List.mem_append.mp hx with hx | hx
    · exact hq x hx
    · rw [List.mem_singleton.mp hx]; exact hr

/-! ## The operations of the commands -/

theorem State.Inv.raise {s : State} (h : s.Inv) (e : ErrFlag) : (s.raise e).Inv := h

theorem State.Inv.enqueueWrite {s : State} (h : s.Inv) {body : List Byte} (hb : BodyOk body) :
    (s.enqueueWrite body).Inv := by
  rcases s.enqueueWrite_cases body with ⟨-, e⟩ | ⟨hl, e⟩ <;> rw [e]
  · exact h
  · obtain ⟨h1, h2, ⟨h3, h4⟩, h5⟩ := h
    refine ⟨h1, h2, ⟨?_, ?_⟩, h5⟩
    · simp; omega
    · intro b hb'
      rcases List.mem_append.mp hb' with hb' | hb'
      · exact h4 b hb'
      · rw [List.mem_singleton.mp hb']; exact hb

theorem State.Inv.issueRead {s : State} (h : s.Inv) (k : RegKind) (m : Byte) : (s.issueRead k m).Inv := by
  rcases s.issueRead_cases k m with ⟨-, e⟩ | ⟨-, -, e⟩ | ⟨hm, hl, e⟩ <;> rw [e]
  · exact h
  · exact h
  · obtain ⟨h1, h2, h3, ⟨h4, h5, h6⟩, h7⟩ := h
    refine ⟨h1, h2, h3, ⟨?_, ?_, h6.snoc rfl⟩, h7⟩
    · simp; omega
    · intro r hr
      rcases List.mem_append.mp hr with hr | hr
      · exact h5 r hr
      · rw [List.mem_singleton.mp hr]; exact ⟨hm, fun _ => rfl, .inl rfl⟩

theorem State.Inv.cancelWrite {s : State} (h : s.Inv) (i : Nat) : (s.cancelWrite i).Inv := by
  rcases s.cancelWrite_cases i with ⟨-, e⟩ | ⟨hi, e⟩ <;> rw [e]
  · exact h
  · obtain ⟨h1, h2, ⟨h3, h4⟩, h5⟩ := h
    refine ⟨h1, h2, ⟨?_, ?_⟩, h5⟩
    · have := List.length_eraseIdx_le s.pendingWrites i
      simp only [State.setWrites_pendingWrites, State.setWrites_params]
      omega
    · exact fun b hb => h4 b (List.mem_of_mem_eraseIdx hb)

theorem State.Inv.stage {s : State} (h : s.Inv) (k : RbKind) (m : Nat) (v : Word) : (s.stage k m v).Inv := by
  obtain ⟨h1, h2, h3, h4, h5, h6, h7, h8⟩ := h
  rcases s.stage_cases k m v with ⟨-, e⟩ | ⟨-, e⟩ | ⟨-, e⟩ <;> rw [e]
  · exact ⟨h1, h2, h3, h4, h5, h6, h7.setBank k (by simp), h8⟩
  · exact ⟨h1, h2, h3, h4, h5, h6, h7.setBank k (by simp [h7.bank_length]), h8⟩
  · exact ⟨h1, h2, h3, h4, h5, h6, h7, h8⟩

/-! ## The tick -/

theorem State.Inv.lineStep {s : State} (h : s.Inv) : s.lineStep.Inv := by
  obtain ⟨h1, h2, ⟨h3, h4⟩, ⟨h5, h6, h7⟩, h8⟩ := h
  rcases s.lineStep_cases with ⟨q, rest, hq, hst, e⟩ | ⟨q, rest, hq, hst, e⟩ | ⟨body, rest, hq, hw, e⟩ | ⟨-, -, e⟩ <;>
    rw [e]
  · rw [hq] at h5 h6 h7
    refine ⟨h1, h2, ⟨h3, h4⟩, ⟨h5, ?_, h7⟩, h8⟩
    intro r hr
    rcases List.mem_cons.mp hr with rfl | hr
    · have := h6 q (by simp)
      exact ⟨this.1, by simp, .inl (this.2.1 hst)⟩
    · exact h6 r (by simp [hr])
  · rw [hq] at h5 h6 h7
    rcases s.awaitRead_cases q rest with ⟨-, e'⟩ | ⟨hlt, e'⟩ <;> rw [e']
    · exact ⟨h1, h2, ⟨h3, h4⟩, ⟨by simp at h5 ⊢; omega, fun r hr => h6 r (by simp at hr ⊢; exact .inr hr), h7.tail⟩, h8⟩
    · refine ⟨h1, h2, ⟨h3, h4⟩, ⟨h5, ?_, h7⟩, h8⟩
      intro r hr
      rcases List.mem_cons.mp hr with rfl | hr
      · exact ⟨(h6 q (by simp)).1, by simp [hst], .inr hlt⟩
      · exact h6 r (by simp [hr])
  · rw [hw] at h3 h4
    refine ⟨h1, h2, ⟨?_, fun b hb => h4 b (by simp at hb ⊢; exact .inr hb)⟩, ⟨h5, h6, h7⟩, h8⟩
    show rest.length ≤ s.params.wqDepth
    simp at h3
    omega
  · exact ⟨h1, h2, ⟨h3, h4⟩, ⟨h5, h6, h7⟩, h8⟩

theorem State.correlate_results_length (s : State) (r : Response) :
    (s.correlate r).results.length = s.results.length := by
  rcases s.correlate_cases r with ⟨-, e⟩ | ⟨q, rest, -, -, e⟩ | ⟨q, rest, v, -, -, e⟩ <;> rw [e]
  · simp
  · simp
  · simp only [State.countResolved_results]
    cases q.kind <;> simp only [State.applyValue, State.applyStatus, State.applyPosition, State.modifyResult] <;>
      split <;> simp

theorem State.correlate_resultOk {s : State} (h : ∀ x ∈ s.results, ResultOk x) (r : Response) :
    ∀ x ∈ (s.correlate r).results, ResultOk x := by
  rcases s.correlate_cases r with ⟨-, e⟩ | ⟨q, rest, -, -, e⟩ | ⟨q, rest, v, -, -, e⟩ <;> rw [e]
  · exact h
  · exact h
  · exact State.resultOk_applyValue (s := s.setReads rest) h _ _ _

theorem State.drainReady_results {s : State} (h : ∀ x ∈ s.results, ResultOk x) (rs : List Response) :
    (s.drainReady rs).results.length = s.results.length ∧ ∀ x ∈ (s.drainReady rs).results, ResultOk x := by
  induction rs generalizing s with
  | nil => exact ⟨rfl, h⟩
  | cons r rs ih =>
    rw [State.drainReady_cons]
    have := ih (s := (s.setReady rs).correlate r) (State.correlate_resultOk (by exact h) r)
    exact ⟨this.1.trans (State.correlate_results_length _ _), this.2⟩

theorem State.Inv.receiveStep {s : State} (h : s.Inv) : s.receiveStep.Inv := by
  obtain ⟨h1, h2, h3, ⟨h5, h6, h7⟩, h8, -, h10, h11, h12⟩ := h
  unfold State.receiveStep
  simp only []
  generalize hf : s.clearRx.feed s.env.rx = fed
  have hp : fed.parser.Ok := hf ▸ State.parserOk_feed (s := s.clearRx) h8 _
  have e1 : fed.params = s.params := by simp [← hf]
  have e2 : fed.cfgInterval = s.cfgInterval := by simp [← hf]
  have e3 : fed.pendingWrites = s.pendingWrites := by simp [← hf]
  have e4 : fed.pendingReads = s.pendingReads := by simp [← hf]
  have e5 : fed.rb = s.rb := by simp [← hf]
  have e6 : fed.results = s.results := by simp [← hf]
  have hres := State.drainReady_results (s := fed) (by rw [e6]; exact h12) fed.ready
  refine ⟨by simpa [e1] using h1, by simpa [e2] using h2, by simpa [e1, e3] using h3, ⟨?_, ?_, ?_⟩, by simpa using hp,
    by simp, by simpa [e1, e5] using h10, ?_, hres.2⟩
  · simp [e1, e4]; omega
  · intro r hr
    simp only [State.drainReady_pendingReads, e4] at hr
    simpa [e1] using h6 r (List.mem_of_mem_drop hr)
  · simpa [e4] using h7.drop _
  · rw [hres.1, e6]; simpa [e1] using h11

theorem State.Inv.tick {s : State} (h : s.Inv) : s.tick.Inv := by
  by_cases ho : s.env.isOpen = true
  · rw [State.tick_open ho]
    exact (State.Inv.lineStep (s := s.countTick) h).receiveStep
  · rw [State.tick_closed (by simpa using ho)]
    exact h

end Sys2Proof.Machine
end

