-- ==== Sys2Proof/Laws/Exec.lean ====
section
/-!
SUPPORT. Sys2Proof/Laws/Exec.lean: what one instruction can do (Machine/Dispatch.lean), said once, and what one
step can do (Machine/Step.lean).
-/

namespace Sys2Proof.Machine

open Sys2Proof

@[simp] theorem exec_tick (s : State) : exec .tick s = .next s.tick := rfl

@[simp] theorem exec_update (s : State) : exec .update s = .next (s.updateAt (s.arg 0)) := rfl

@[simp] theorem exec_cancel (s : State) : exec .cancel s = .next (s.cancelWrite (s.arg 0).toNat) := rfl

/-- Every instruction answers a next state, and it is one shared operation on the state. -/
theorem exec_cases (i : Instr) (s : State) :
    ∃ t, exec i s = .next t ∧
      ((∃ c, (i = .crcInit ∨ i = .crcFeed) ∧ t = s.setCrcReg c)
        ∨ (∃ k m, (i = .readStatus m ∨ i = .readPosition m) ∧ t = s.issueRead k m)
        ∨ (∃ st a vals, (vals.length = 1 ∨ vals.length = 6 ∨ vals.length = s.params.nMotors) ∧
            t = s.enqueueWrite (bodyWrite st a vals))
        ∨ (i = .cancel ∧ t = s.cancelWrite (s.arg 0).toNat)
        ∨ (∃ k m, (i = .stagePos m ∨ i = .stageVel m ∨ i = .stageMode m ∨ i = .stageAcc m ∨ i = .stageDec m
            ∨ i = .stageCur m) ∧ t = s.stage k m.toNat (s.arg 0))
        ∨ (i = .tick ∧ t = s.tick)
        ∨ (i = .update ∧ t = s.updateAt (s.arg 0))
        ∨ (∃ bs, t = s.receive bs)) := by
  cases i with
  | crcInit => exact ⟨_, rfl, .inl ⟨_, .inl rfl, rfl⟩⟩
  | crcFeed => exact ⟨_, rfl, .inl ⟨_, .inr rfl, rfl⟩⟩
  | readStatus m => exact ⟨_, rfl, .inr (.inl ⟨.status, m, .inl rfl, rfl⟩)⟩
  | readPosition m => exact ⟨_, rfl, .inr (.inl ⟨.position, m, .inr rfl, rfl⟩)⟩
  | rioStart id => exact ⟨_, rfl, .inr (.inr (.inl ⟨_, _, [_], .inl rfl, rfl⟩))⟩
  | rioHome id => exact ⟨_, rfl, .inr (.inr (.inl ⟨_, _, [_], .inl rfl, rfl⟩))⟩
  | rioStop id => exact ⟨_, rfl, .inr (.inr (.inl ⟨_, _, [_], .inl rfl, rfl⟩))⟩
  | rioFree id => exact ⟨_, rfl, .inr (.inr (.inl ⟨_, _, [_], .inl rfl, rfl⟩))⟩
  | rioReset id => exact ⟨_, rfl, .inr (.inr (.inl ⟨_, _, [_], .inl rfl, rfl⟩))⟩
  | rioJogFwd id => exact ⟨_, rfl, .inr (.inr (.inl ⟨_, _, [_], .inl rfl, rfl⟩))⟩
  | rioJogBwd id => exact ⟨_, rfl, .inr (.inr (.inl ⟨_, _, [_], .inl rfl, rfl⟩))⟩
  | rioClear id => exact ⟨_, rfl, .inr (.inr (.inl ⟨_, _, [_], .inl rfl, rfl⟩))⟩
  | netsel id => exact ⟨_, rfl, .inr (.inr (.inl ⟨_, _, [_], .inl rfl, rfl⟩))⟩
  | jogsteps id => exact ⟨_, rfl, .inr (.inr (.inl ⟨_, _, [_], .inl rfl, rfl⟩))⟩
  | jogspeed id => exact ⟨_, rfl, .inr (.inr (.inl ⟨_, _, [_], .inl rfl, rfl⟩))⟩
  | origin id => exact ⟨_, rfl, .inr (.inr (.inl ⟨_, _, [_], .inl rfl, rfl⟩))⟩
  | dd id => exact ⟨_, rfl, .inr (.inr (.inl ⟨_, _, s.ddValues, .inr (.inl rfl), rfl⟩))⟩
  | batchPos => exact ⟨_, rfl, .inr (.inr (.inl ⟨_, _, s.batchValues .pos, .inr (.inr (by simp)), rfl⟩))⟩
  | batchVel => exact ⟨_, rfl, .inr (.inr (.inl ⟨_, _, s.batchValues .vel, .inr (.inr (by simp)), rfl⟩))⟩
  | batchMode => exact ⟨_, rfl, .inr (.inr (.inl ⟨_, _, s.batchValues .mode, .inr (.inr (by simp)), rfl⟩))⟩
  | batchAcc => exact ⟨_, rfl, .inr (.inr (.inl ⟨_, _, s.batchValues .acc, .inr (.inr (by simp)), rfl⟩))⟩
  | batchDec => exact ⟨_, rfl, .inr (.inr (.inl ⟨_, _, s.batchValues .dec, .inr (.inr (by simp)), rfl⟩))⟩
  | cancel => exact ⟨_, rfl, .inr (.inr (.inr (.inl ⟨rfl, rfl⟩)))⟩
  | stagePos id => exact ⟨_, rfl, .inr (.inr (.inr (.inr (.inl ⟨.pos, id, by simp, rfl⟩))))⟩
  | stageVel id => exact ⟨_, rfl, .inr (.inr (.inr (.inr (.inl ⟨.vel, id, by simp, rfl⟩))))⟩
  | stageMode id => exact ⟨_, rfl, .inr (.inr (.inr (.inr (.inl ⟨.mode, id, by simp, rfl⟩))))⟩
  | stageAcc id => exact ⟨_, rfl, .inr (.inr (.inr (.inr (.inl ⟨.acc, id, by simp, rfl⟩))))⟩
  | stageDec id => exact ⟨_, rfl, .inr (.inr (.inr (.inr (.inl ⟨.dec, id, by simp, rfl⟩))))⟩
  | stageCur id => exact ⟨_, rfl, .inr (.inr (.inr (.inr (.inl ⟨.cur, id, by simp, rfl⟩))))⟩
  | tick => exact ⟨_, rfl, .inr (.inr (.inr (.inr (.inr (.inl ⟨rfl, rfl⟩)))))⟩
  | update => exact ⟨_, rfl, .inr (.inr (.inr (.inr (.inr (.inr (.inl ⟨rfl, rfl⟩))))))⟩
  | wireReadReq st addr crc => exact ⟨_, rfl, .inr (.inr (.inr (.inr (.inr (.inr (.inr ⟨_, rfl⟩))))))⟩
  | wireReadResp st fn v crc => exact ⟨_, rfl, .inr (.inr (.inr (.inr (.inr (.inr (.inr ⟨_, rfl⟩))))))⟩
  | wireWrite1 st addr v crc => exact ⟨_, rfl, .inr (.inr (.inr (.inr (.inr (.inr (.inr ⟨_, rfl⟩))))))⟩
  | wireWriteDd st addr p v a d i t crc => exact ⟨_, rfl, .inr (.inr (.inr (.inr (.inr (.inr (.inr ⟨_, rfl⟩))))))⟩
  | wireWriteBatch addr vals crc => exact ⟨_, rfl, .inr (.inr (.inr (.inr (.inr (.inr (.inr ⟨_, rfl⟩))))))⟩

/-- CMD is at offset 0 and nowhere else (10_state.md R25). -/
theorem WindowReg.eq_zero_of_cmd {off : BitVec 12} (h : WindowReg.ofOffset off = .cmd) : off = 0x000#12 := by
  unfold WindowReg.ofOffset at h
  simp only [] at h
  by_cases h1 : off.toNat < 0x020
  · apply BitVec.eq_of_toNat_eq
    generalize off.toNat = o at h h1
    interval_cases o <;> first | rfl | simp [lowRegs] at h
  · rw [if_neg h1] at h
    split_ifs at h

/-- One action from outside is an instruction, or one simple change of the state. -/
theorem State.perform_cases (s : State) (e : Event) :
    (∃ w i, e = .hostWrite 0x000#12 w ∧ decode (.command w) = .ok i ∧ s.perform e = exec i (s.setCmd w))
      ∨ (∃ w, e = .hostWrite 0x000#12 w ∧ s.perform e = .next ((s.setCmd w).raise .badCmd))
      ∨ (∃ bs i, e = .lineBytes bs ∧ decode (.frame bs) = .ok i ∧ s.perform e = exec i s)
      ∨ (∃ bs, e = .lineBytes bs ∧ s.perform e = .next (s.receive bs))
      ∨ (∃ off k v, e = .hostWrite off v ∧ s.perform e = .next (s.setArg k v))
      ∨ (∃ off v, e = .hostWrite off v ∧ s.perform e = .next (s.clearErr v))
      ∨ (∃ off v, e = .hostWrite off v ∧ v ≠ 0#32 ∧ s.perform e = .next (s.setInterval v))
      ∨ (∃ off v, e = .hostWrite off v ∧ s.perform e = .next (s.setTimeout v))
      ∨ (∃ off v err, e = .hostWrite off v ∧ s.perform e = .next (s.raise err))
      ∨ (∃ off, e = .hostRead off ∧ s.perform e = .next (s.logRead (s.hostRead off)))
      ∨ (∃ b, e = .setOpen b ∧ s.perform e = .next (s.setOpen b))
      ∨ (e = .reset ∧ s.perform e = .next s.resetBlock) := by
  cases e with
  | hostWrite off v =>
    cases hoff : WindowReg.ofOffset off with
    | cmd =>
      have h0 := WindowReg.eq_zero_of_cmd hoff
      subst h0
      have hp : s.perform (.hostWrite 0x000#12 v) = s.runCommand v := rfl
      cases hd : decode (.command v) with
      | ok i => exact .inl ⟨v, i, rfl, hd, by rw [hp]; simp [State.runCommand, hd]⟩
      | error e => exact .inr (.inl ⟨v, rfl, by rw [hp]; simp [State.runCommand, hd]⟩)
    | arg k => exact .inr (.inr (.inr (.inr (.inl ⟨off, k, v, rfl, by simp [State.perform, State.hostWrite, hoff]⟩))))
    | err => exact .inr (.inr (.inr (.inr (.inr (.inl ⟨off, v, rfl, by simp [State.perform, State.hostWrite, hoff]⟩)))))
    | cfgInterval =>
      by_cases hv : v = 0#32
      · exact .inr (.inr (.inr (.inr (.inr (.inr (.inr (.inr (.inl ⟨off, v, .badCfg, rfl,
          by simp [State.perform, State.hostWrite, hoff, State.writeInterval, hv]⟩))))))))
      · exact .inr (.inr (.inr (.inr (.inr (.inr (.inl ⟨off, v, rfl, hv,
          by simp [State.perform, State.hostWrite, hoff, State.writeInterval, hv]⟩))))))
    | cfgTimeout =>
      exact .inr (.inr (.inr (.inr (.inr (.inr (.inr (.inl ⟨off, v, rfl,
        by simp [State.perform, State.hostWrite, hoff]⟩)))))))
    | _ =>
      exact .inr (.inr (.inr (.inr (.inr (.inr (.inr (.inr (.inl ⟨off, v, .badReg, rfl,
        by simp [State.perform, State.hostWrite, hoff]⟩))))))))
  | hostRead off => exact .inr (.inr (.inr (.inr (.inr (.inr (.inr (.inr (.inr (.inl ⟨off, rfl, rfl⟩)))))))))
  | setOpen b => exact .inr (.inr (.inr (.inr (.inr (.inr (.inr (.inr (.inr (.inr (.inl ⟨b, rfl, rfl⟩))))))))))
  | lineBytes bs =>
    have hp : s.perform (.lineBytes bs) = s.arrive bs := rfl
    cases hd : decode (.frame bs) with
    | ok i => exact .inr (.inr (.inl ⟨bs, i, rfl, hd, by rw [hp]; simp [State.arrive, hd]⟩))
    | error e => exact .inr (.inr (.inr (.inl ⟨bs, rfl, by rw [hp]; simp [State.arrive, hd]⟩)))
  | reset => exact .inr (.inr (.inr (.inr (.inr (.inr (.inr (.inr (.inr (.inr (.inr ⟨rfl, rfl⟩))))))))))

end Sys2Proof.Machine
end

