-- ==== Sys2Proof/Laws/PerInstr.lean ====
section
/-!
SUPPORT. Sys2Proof/Laws/PerInstr.lean: the family TableRow. What the encoder writes for an instruction fits the
instruction's row of spec/opcode_table.json: a command word its match under its mask, a frame its length and the
bytes the row fixes.
-/

namespace Sys2Proof.Laws.TableRow

open Sys2Proof Sys2Proof.Machine

/-- A row of spec/opcode_table.json: a command's match and mask, or a frame's length and fixed bytes by index. -/
inductive Row where
  | command (mtch mask : Word)
  | wire (length : Nat) (fixed : List (Nat × Byte))
  deriving DecidableEq, Repr

/-- A code fits a row. -/
def Row.Fits : Row → Code → Prop
  | .command mtch mask, .command w => w &&& mask = mtch
  | .wire n fixed, .frame bs => bs.length = n ∧ ∀ f ∈ fixed, bs[f.1]? = some f.2
  | _, _ => False

/-- The row of each instruction, transcribed from spec/opcode_table.json. -/
def row : Instr → Row
  | .crcInit => .command 0x01000000#32 0xFFFFFFFF#32
  | .crcFeed => .command 0x02000000#32 0xFFFFFFFF#32
  | .readStatus _ => .command 0x10000000#32 0xFFFF00FF#32
  | .readPosition _ => .command 0x10010000#32 0xFFFF00FF#32
  | .rioStart _ => .command 0x20000000#32 0xFFFF00FF#32
  | .rioHome _ => .command 0x20010000#32 0xFFFF00FF#32
  | .rioStop _ => .command 0x20020000#32 0xFFFF00FF#32
  | .rioFree _ => .command 0x20030000#32 0xFFFF00FF#32
  | .rioReset _ => .command 0x20040000#32 0xFFFF00FF#32
  | .rioJogFwd _ => .command 0x20050000#32 0xFFFF00FF#32
  | .rioJogBwd _ => .command 0x20060000#32 0xFFFF00FF#32
  | .rioClear _ => .command 0x20070000#32 0xFFFF00FF#32
  | .netsel _ => .command 0x21000000#32 0xFFFF00FF#32
  | .jogsteps _ => .command 0x22000000#32 0xFFFF00FF#32
  | .jogspeed _ => .command 0x23000000#32 0xFFFF00FF#32
  | .origin _ => .command 0x24000000#32 0xFFFF00FF#32
  | .dd _ => .command 0x25000000#32 0xFFFF00FF#32
  | .batchPos => .command 0x26000000#32 0xFFFFFFFF#32
  | .batchVel => .command 0x26010000#32 0xFFFFFFFF#32
  | .batchMode => .command 0x26020000#32 0xFFFFFFFF#32
  | .batchAcc => .command 0x26030000#32 0xFFFFFFFF#32
  | .batchDec => .command 0x26040000#32 0xFFFFFFFF#32
  | .cancel => .command 0x27000000#32 0xFFFFFFFF#32
  | .stagePos _ => .command 0x30000000#32 0xFFFF00FF#32
  | .stageVel _ => .command 0x30010000#32 0xFFFF00FF#32
  | .stageMode _ => .command 0x30020000#32 0xFFFF00FF#32
  | .stageAcc _ => .command 0x30030000#32 0xFFFF00FF#32
  | .stageDec _ => .command 0x30040000#32 0xFFFF00FF#32
  | .stageCur _ => .command 0x30050000#32 0xFFFF00FF#32
  | .tick => .command 0x40000000#32 0xFFFFFFFF#32
  | .update => .command 0x41000000#32 0xFFFFFFFF#32
  | .wireReadReq _ _ _ => .wire 8 [(1, 0x03#8), (4, 0x00#8), (5, 0x02#8)]
  | .wireReadResp _ _ _ _ => .wire 9 [(2, 0x04#8)]
  | .wireWrite1 _ _ _ _ => .wire 13 [(1, 0x10#8), (4, 0x00#8), (5, 0x02#8), (6, 0x04#8)]
  | .wireWriteDd _ _ _ _ _ _ _ _ _ => .wire 33 [(1, 0x10#8), (4, 0x00#8), (5, 0x0C#8), (6, 0x18#8)]
  | .wireWriteBatch _ vals _ => .wire (9 + 4 * vals.length)
      [(0, 0x00#8), (1, 0x10#8), (4, 0x00#8), (5, BitVec.ofNat 8 (2 * vals.length)),
       (6, BitVec.ofNat 8 (4 * vals.length))]

/-- An instruction whose batch size is legal encodes to a code that fits its row. -/
def Statement (i : Instr) : Prop := i.shapeOk = true → (row i).Fits (encode i)

/-- A command word with any ID fits the row whose mask leaves the ID byte out. -/
theorem fits_of_id (o : Opcode) (sel id : Byte) {mtch : Word} (h : commandWord o sel 0#8 = mtch) :
    commandWord o sel id &&& 0xFFFF00FF#32 = mtch := by
  rw [← h]
  apply BitVec.eq_of_getLsbD_eq
  intro i hi
  interval_cases i <;> simp [commandWord]

theorem crcInit : Statement .crcInit := fun _ => rfl

theorem crcFeed : Statement .crcFeed := fun _ => rfl

theorem readStatus (id : Byte) : Statement (.readStatus id) := fun _ => fits_of_id _ _ _ (by decide)

theorem readPosition (id : Byte) : Statement (.readPosition id) := fun _ => fits_of_id _ _ _ (by decide)

theorem rioStart (id : Byte) : Statement (.rioStart id) := fun _ => fits_of_id _ _ _ (by decide)

theorem rioHome (id : Byte) : Statement (.rioHome id) := fun _ => fits_of_id _ _ _ (by decide)

theorem rioStop (id : Byte) : Statement (.rioStop id) := fun _ => fits_of_id _ _ _ (by decide)

theorem rioFree (id : Byte) : Statement (.rioFree id) := fun _ => fits_of_id _ _ _ (by decide)

theorem rioReset (id : Byte) : Statement (.rioReset id) := fun _ => fits_of_id _ _ _ (by decide)

theorem rioJogFwd (id : Byte) : Statement (.rioJogFwd id) := fun _ => fits_of_id _ _ _ (by decide)

theorem rioJogBwd (id : Byte) : Statement (.rioJogBwd id) := fun _ => fits_of_id _ _ _ (by decide)

theorem rioClear (id : Byte) : Statement (.rioClear id) := fun _ => fits_of_id _ _ _ (by decide)

theorem netsel (id : Byte) : Statement (.netsel id) := fun _ => fits_of_id _ _ _ (by decide)

theorem jogsteps (id : Byte) : Statement (.jogsteps id) := fun _ => fits_of_id _ _ _ (by decide)

theorem jogspeed (id : Byte) : Statement (.jogspeed id) := fun _ => fits_of_id _ _ _ (by decide)

theorem origin (id : Byte) : Statement (.origin id) := fun _ => fits_of_id _ _ _ (by decide)

theorem dd (id : Byte) : Statement (.dd id) := fun _ => fits_of_id _ _ _ (by decide)

theorem batchPos : Statement .batchPos := fun _ => rfl

theorem batchVel : Statement .batchVel := fun _ => rfl

theorem batchMode : Statement .batchMode := fun _ => rfl

theorem batchAcc : Statement .batchAcc := fun _ => rfl

theorem batchDec : Statement .batchDec := fun _ => rfl

theorem cancel : Statement .cancel := fun _ => rfl

theorem stagePos (id : Byte) : Statement (.stagePos id) := fun _ => fits_of_id _ _ _ (by decide)

theorem stageVel (id : Byte) : Statement (.stageVel id) := fun _ => fits_of_id _ _ _ (by decide)

theorem stageMode (id : Byte) : Statement (.stageMode id) := fun _ => fits_of_id _ _ _ (by decide)

theorem stageAcc (id : Byte) : Statement (.stageAcc id) := fun _ => fits_of_id _ _ _ (by decide)

theorem stageDec (id : Byte) : Statement (.stageDec id) := fun _ => fits_of_id _ _ _ (by decide)

theorem stageCur (id : Byte) : Statement (.stageCur id) := fun _ => fits_of_id _ _ _ (by decide)

theorem tick : Statement .tick := fun _ => rfl

theorem update : Statement .update := fun _ => rfl

theorem wireReadReq (st : Byte) (addr crc : Half) : Statement (.wireReadReq st addr crc) := by
  intro _
  simp [row, encode, Row.Fits, bodyRead, be16, trailer, hi8, lo8]

theorem wireReadResp (st fn : Byte) (v : Word) (crc : Half) : Statement (.wireReadResp st fn v crc) := by
  intro _
  simp [row, encode, Row.Fits, bodyResponse, be32, trailer, hi8, lo8]

theorem wireWrite1 (st : Byte) (addr : Half) (v : Word) (crc : Half) :
    Statement (.wireWrite1 st addr v crc) := by
  intro _
  simp [row, encode, Row.Fits, bodyWrite, be16, be32, trailer, payload, hi8, lo8]

theorem wireWriteDd (st : Byte) (addr : Half) (p v a d i t : Word) (crc : Half) :
    Statement (.wireWriteDd st addr p v a d i t crc) := by
  intro _
  simp [row, encode, Row.Fits, bodyWrite, be16, be32, trailer, payload, hi8, lo8]

theorem wireWriteBatch (addr : Half) (vals : List Word) (crc : Half) :
    Statement (.wireWriteBatch addr vals crc) := by
  intro h
  simp only [Instr.shapeOk, decide_eq_true_eq] at h
  have hc : hi8 (BitVec.ofNat 16 (2 * vals.length)) = 0#8 := by
    apply BitVec.eq_of_toNat_eq
    simp [hi8, BitVec.extractLsb'_toNat]
    omega
  have hl : lo8 (BitVec.ofNat 16 (2 * vals.length)) = BitVec.ofNat 8 (2 * vals.length) := by
    apply BitVec.eq_of_toNat_eq
    simp [lo8, BitVec.extractLsb'_toNat]
  simp [row, encode, Row.Fits, bodyWrite, be16, hc, hl]
  omega

end Sys2Proof.Laws.TableRow
end

