-- ==== Sys2Proof/Laws/Window.lean ====
section
/-!
SUPPORT. Sys2Proof/Laws/Window.lean: which register each offset of the window is (10_state.md R25), and the bits of
the computed views.
-/

namespace Sys2Proof.Machine

open Sys2Proof

theorem WindowReg.ofOffset_pos {m : Nat} (h : m < 64) : WindowReg.ofOffset (BitVec.ofNat 12 (0x020 + m)) = .pos m := by
  unfold WindowReg.ofOffset
  simp only [BitVec.toNat_ofNat, Nat.mod_eq_of_lt (by omega : 0x020 + m < 2 ^ 12)]
  rw [if_neg (by omega), if_pos (by omega), show 0x020 + m - 0x020 = m by omega]

theorem WindowReg.ofOffset_stat {m : Nat} (h : m < 64) :
    WindowReg.ofOffset (BitVec.ofNat 12 (0x060 + m)) = .stat m := by
  unfold WindowReg.ofOffset
  simp only [BitVec.toNat_ofNat, Nat.mod_eq_of_lt (by omega : 0x060 + m < 2 ^ 12)]
  rw [if_neg (by omega), if_neg (by omega), if_pos (by omega), show 0x060 + m - 0x060 = m by omega]

theorem WindowReg.ofOffset_flags {m : Nat} (h : m < 64) :
    WindowReg.ofOffset (BitVec.ofNat 12 (0x0A0 + m)) = .flags m := by
  unfold WindowReg.ofOffset
  simp only [BitVec.toNat_ofNat, Nat.mod_eq_of_lt (by omega : 0x0A0 + m < 2 ^ 12)]
  rw [if_neg (by omega), if_neg (by omega), if_neg (by omega), if_pos (by omega),
    show 0x0A0 + m - 0x0A0 = m by omega]

theorem WindowReg.ofOffset_rb {k m : Nat} (hk : k < 6) (h : m < 64) :
    WindowReg.ofOffset (BitVec.ofNat 12 (0x100 + 0x40 * k + m)) = .rb (RbKind.ofIndex k) m := by
  unfold WindowReg.ofOffset
  simp only [BitVec.toNat_ofNat, Nat.mod_eq_of_lt (by omega : 0x100 + 0x40 * k + m < 2 ^ 12)]
  rw [if_neg (by omega), if_neg (by omega), if_neg (by omega), if_neg (by omega), if_neg (by omega),
    if_pos (by omega), show (0x100 + 0x40 * k + m - 0x100) / 0x40 = k by omega,
    show (0x100 + 0x40 * k + m - 0x100) % 0x40 = m by omega]

theorem WindowReg.ofOffset_reserved {off : BitVec 12} (h : (0x016 ≤ off.toNat ∧ off.toNat < 0x020)
    ∨ (0x0E0 ≤ off.toNat ∧ off.toNat < 0x100) ∨ 0x280 ≤ off.toNat) : WindowReg.ofOffset off = .reserved := by
  unfold WindowReg.ofOffset
  simp only []
  generalize off.toNat = o at *
  rcases h with h | h | h
  · rw [if_pos (by omega), List.getD_eq_getElem?_getD, List.getElem?_eq_none (by simp [lowRegs]; omega)]
    rfl
  · repeat rw [if_neg (by omega)]
    rw [if_pos (by omega)]
  · repeat rw [if_neg (by omega)]

/-- The bits of a one-bit field. -/
theorem getLsbD_bitAt (b : Bool) (n i : Nat) :
    (bitAt b n).getLsbD i = (decide (i < 32) && decide (i = n) && b) := by
  simp only [bitAt, BitVec.getLsbD_shiftLeft]
  cases b
  · simp
  · by_cases h1 : i < n
    · simp [h1]; omega
    · by_cases h : i = n
      · subst h; simp
      · have : i - n ≠ 0 := by omega
        simp [h, this]

end Sys2Proof.Machine
end

