-- ==== Sys2Proof/Tests/Slice0.lean ====
section
/-!
SUPPORT. Sys2Proof/Tests/Slice0.lean: the model's own tests. Expected results are those of 95_test_vectors.md (its
vector is named at each test) or written out by hand from the rule named. Then one witness per statement with
hypotheses: concrete states and operands that meet them, at the boundaries of each clause.
-/

namespace Sys2Proof.Tests

open Sys2Proof Sys2Proof.Machine Sys2Proof.Claims

set_option Elab.async false

/-! ## Helpers: small states -/

/-- A host write followed by nothing. -/
def wr (off : BitVec 12) (v : Word) (s : State) : State := s.setAgenda [.hostWrite off v]

/-- A command word about to be run. -/
def cmd (w : Word) (s : State) : State := wr 0x000#12 w s

/-- The step answers a next state of which `p` holds. -/
def gives (s : State) (p : State → Bool) : Bool :=
  match step s with
  | .next t => p t
  | _ => false

/-- Reset with ARG0. -/
def withArg0 (v : Word) : State := State.reset.setArg 0 v

/-- A queued read. -/
def rd (m : Byte) (k : RegKind) (st : ReqState) (waited timeout : Word) : PendingRequest where
  motorId := m
  kind := k
  state := st
  ticksWaited := waited
  timeoutTicks := timeout

/-- Reset with queued reads and bytes on the line. -/
def reading (q : List PendingRequest) (rx : List Byte) : State := (State.reset.setReads q).receive rx

/-- The body of RIO.STOP 1 (V-F7). -/
def stop1 : List Byte :=
  [0x01#8, 0x10#8, 0x03#8, 0x00#8, 0x00#8, 0x02#8, 0x04#8, 0x00#8, 0x00#8, 0x00#8, 0x04#8]

/-- The frames f1, f2, g1 of 95_test_vectors.md section 0. -/
def f1 : List Byte := [0x01#8, 0x03#8, 0x04#8, 0x00#8, 0x00#8, 0x03#8, 0xE8#8, 0xFA#8, 0x8D#8]
def f2 : List Byte := [0x02#8, 0x03#8, 0x04#8, 0x00#8, 0x00#8, 0x00#8, 0x20#8, 0xC8#8, 0xEB#8]
def g1 : List Byte := [0x01#8, 0x03#8, 0x04#8, 0x00#8, 0x00#8, 0x00#8, 0x20#8, 0xFB#8, 0xEB#8]

/-- The frames the queued writes will be sent as. -/
def lines (s : State) : List (List Byte) := s.pendingWrites.map withTrailer

/-- A RIO frame of station 1 (V-F7). -/
def rioFrame (mm t0 t1 : Byte) : List Byte :=
  [0x01#8, 0x10#8, 0x03#8, 0x00#8, 0x00#8, 0x02#8, 0x04#8, 0x00#8, 0x00#8, 0x00#8, mm, t0, t1]

/-- A batch frame of [7, 7] (V-F19). -/
def batchFrame (a0 t0 t1 : Byte) : List Byte :=
  [0x00#8, 0x10#8, 0x04#8, a0, 0x00#8, 0x04#8, 0x08#8, 0x00#8, 0x00#8, 0x00#8, 0x07#8, 0x00#8, 0x00#8, 0x00#8,
   0x07#8, t0, t1]

/-- Reset with [7, 7] in every bank. -/
def sevens : State := State.reset.setRb
  { pos := [7, 7], vel := [7, 7], mode := [7, 7], acc := [7, 7], dec := [7, 7], cur := [7, 7] }

/-! ## WellFormed: an ill-formed term for each check -/

theorem test_wf_accepts : (Instr.wireReadReq 0x01#8 0x0200#16 0xB3C5#16).wellFormed = true
    ∧ (Instr.wireReadResp 0x01#8 0x03#8 1000#32 0x8DFA#16).wellFormed = true
    ∧ (Instr.wireWriteBatch 0x0400#16 [1000#32, 0xFFFFFFFF#32] 0x4E18#16).wellFormed = true
    ∧ (Instr.readStatus 0xFF#8).wellFormed = true := by decide +kernel

theorem test_wf_refuses_batch_sizes :
    (Instr.wireWriteBatch 0x0400#16 [] 0#16).shapeOk = false
      ∧ (Instr.wireWriteBatch 0x0400#16 [7#32] 0#16).shapeOk = false
      ∧ (Instr.wireWriteBatch 0x0400#16 (List.replicate 6 7#32) 0#16).shapeOk = false
      ∧ (Instr.wireWriteBatch 0x0400#16 (List.replicate 61 7#32) 0#16).shapeOk = false
      ∧ (Instr.wireWriteBatch 0x0400#16 (List.replicate 60 7#32) 0#16).shapeOk = true := by decide

theorem test_wf_refuses_trailers :
    (Instr.wireReadReq 0x01#8 0x0200#16 0xB3C4#16).wellFormed = false
      ∧ (Instr.wireReadResp 0x01#8 0x03#8 1000#32 0x8CFA#16).wellFormed = false
      ∧ (Instr.wireWrite1 0x00#8 0x0300#16 4#32 0#16).wellFormed = false
      ∧ (Instr.wireWriteDd 0x01#8 0x0600#16 1000#32 2000#32 3000#32 3000#32 500#32 1#32 0#16).wellFormed = false
      ∧ (Instr.wireWriteBatch 0x0400#16 [1000#32, 0xFFFFFFFF#32] 0#16).wellFormed = false := by decide +kernel

/-! ## Decoding: words written out from 30_encoding.md R90, R92, R93 and frames from R101 to R103 -/

theorem test_decode_crc : decode (.command 0x01000000#32) = .ok .crcInit
    ∧ decode (.command 0x02000000#32) = .ok .crcFeed := by decide

theorem test_decode_reads : decode (.command 0x10000200#32) = .ok (.readStatus 2#8)
    ∧ decode (.command 0x10010100#32) = .ok (.readPosition 1#8) := by decide

theorem test_decode_rio : decode (.command 0x20000100#32) = .ok (.rioStart 1#8)
    ∧ decode (.command 0x20010100#32) = .ok (.rioHome 1#8) ∧ decode (.command 0x20020100#32) = .ok (.rioStop 1#8)
    ∧ decode (.command 0x20030100#32) = .ok (.rioFree 1#8) ∧ decode (.command 0x20040100#32) = .ok (.rioReset 1#8)
    ∧ decode (.command 0x20050100#32) = .ok (.rioJogFwd 1#8)
    ∧ decode (.command 0x20060100#32) = .ok (.rioJogBwd 1#8)
    ∧ decode (.command 0x2007FF00#32) = .ok (.rioClear 0xFF#8) := by decide

theorem test_decode_writes : decode (.command 0x21000100#32) = .ok (.netsel 1#8)
    ∧ decode (.command 0x22000100#32) = .ok (.jogsteps 1#8) ∧ decode (.command 0x23000000#32) = .ok (.jogspeed 0#8)
    ∧ decode (.command 0x24000200#32) = .ok (.origin 2#8) ∧ decode (.command 0x25000100#32) = .ok (.dd 1#8)
    ∧ decode (.command 0x27000000#32) = .ok .cancel := by decide

theorem test_decode_batch : decode (.command 0x26000000#32) = .ok .batchPos
    ∧ decode (.command 0x26010000#32) = .ok .batchVel ∧ decode (.command 0x26020000#32) = .ok .batchMode
    ∧ decode (.command 0x26030000#32) = .ok .batchAcc ∧ decode (.command 0x26040000#32) = .ok .batchDec := by decide

theorem test_decode_stage : decode (.command 0x30000000#32) = .ok (.stagePos 0#8)
    ∧ decode (.command 0x30010300#32) = .ok (.stageVel 3#8) ∧ decode (.command 0x30020100#32) = .ok (.stageMode 1#8)
    ∧ decode (.command 0x30030100#32) = .ok (.stageAcc 1#8) ∧ decode (.command 0x30040100#32) = .ok (.stageDec 1#8)
    ∧ decode (.command 0x30050100#32) = .ok (.stageCur 1#8) := by decide

theorem test_decode_ticks : decode (.command 0x40000000#32) = .ok .tick
    ∧ decode (.command 0x41000000#32) = .ok .update := by decide

/-- V-E3 (OP 0), V-E6 (RSV), V-E5 (SEL), V-E4 (ID). -/
theorem test_decode_rejects : decode (.command 0x00000001#32) = .error .badOp
    ∧ decode (.command 0x41000001#32) = .error .badRsv ∧ decode (.command 0x30060000#32) = .error .badSel
    ∧ decode (.command 0x26010100#32) = .error .badId ∧ decode (.command 0x10020100#32) = .error .badSel
    ∧ decode (.command 0x20080000#32) = .error .badSel ∧ decode (.command 0x26050000#32) = .error .badSel := by
  decide

/-- V-F1 (request), f3 (response), V-F6 (one value). -/
theorem test_decode_frames :
    decode (.frame [0x01#8, 0x03#8, 0x02#8, 0x00#8, 0x00#8, 0x02#8, 0xC5#8, 0xB3#8])
        = .ok (.wireReadReq 1#8 0x0200#16 0xB3C5#16)
      ∧ decode (.frame [0x01#8, 0x03#8, 0x04#8, 0xFF#8, 0xFF#8, 0xFF#8, 0xFF#8, 0xFB#8, 0xA7#8])
        = .ok (.wireReadResp 1#8 3#8 0xFFFFFFFF#32 0xA7FB#16)
      ∧ decode (.frame [0x00#8, 0x10#8, 0x03#8, 0x00#8, 0x00#8, 0x02#8, 0x04#8, 0x00#8, 0x00#8, 0x00#8, 0x04#8,
          0xE2#8, 0x60#8]) = .ok (.wireWrite1 0#8 0x0300#16 4#32 0x60E2#16) := by decide

/-- V-F17. -/
theorem test_decode_dd_frame :
    decode (.frame [0x01#8, 0x10#8, 0x06#8, 0x00#8, 0x00#8, 0x0C#8, 0x18#8, 0x00#8, 0x00#8, 0x03#8, 0xE8#8, 0x00#8,
        0x00#8, 0x07#8, 0xD0#8, 0x00#8, 0x00#8, 0x0B#8, 0xB8#8, 0x00#8, 0x00#8, 0x0B#8, 0xB8#8, 0x00#8, 0x00#8,
        0x01#8, 0xF4#8, 0x00#8, 0x00#8, 0x00#8, 0x01#8, 0x0B#8, 0xF0#8])
      = .ok (.wireWriteDd 1#8 0x0600#16 1000#32 2000#32 3000#32 3000#32 500#32 1#32 0xF00B#16) := by decide

/-- V-F18, and the same frame sent to station 1, which is no batch frame. -/
theorem test_decode_batch_frame :
    decode (.frame [0x00#8, 0x10#8, 0x04#8, 0x00#8, 0x00#8, 0x04#8, 0x08#8, 0x00#8, 0x00#8, 0x03#8, 0xE8#8, 0xFF#8,
        0xFF#8, 0xFF#8, 0xFF#8, 0x18#8, 0x4E#8]) = .ok (.wireWriteBatch 0x0400#16 [1000#32, 0xFFFFFFFF#32] 0x4E18#16)
      ∧ decode (.frame [0x01#8, 0x10#8, 0x04#8, 0x00#8, 0x00#8, 0x04#8, 0x08#8, 0x00#8, 0x00#8, 0x03#8, 0xE8#8,
        0xFF#8, 0xFF#8, 0xFF#8, 0xFF#8, 0x18#8, 0x4E#8]) = .error .badStation := by decide

/-- The table's numbering: the first byte of f1 in bits 7..0. -/
theorem test_decodeTableWord : decodeTableWord 32 0x10010100 = some (.readPosition 1#8)
    ∧ decodeTableWord 72 0x8DFAE80300000403_01 = some (.wireReadResp 1#8 3#8 1000#32 0x8DFA#16) := by decide

theorem test_withFetchWord : gives (State.reset.withFetchWord 32 0x27000000)
    (fun t => t.cmd == 0x27000000#32 && t.err == 0x200#10 && t.env.agenda.isEmpty) = true := by decide +kernel

/-! ## The CRC: V-C1 to V-C13 -/

theorem test_crc16_check : crc16 [0x31#8, 0x32#8, 0x33#8, 0x34#8, 0x35#8, 0x36#8, 0x37#8, 0x38#8, 0x39#8]
    = 0x4B37#16 := by decide +kernel

theorem test_crc16_vectors : crc16 [] = 0xFFFF#16 ∧ crc16 [0xFF#8, 0xFF#8] = 0x0000#16 ∧ crc16 [0x41#8] = 0x707F#16
    ∧ crc16 [0x01#8, 0x03#8, 0x00#8, 0x00#8, 0x00#8, 0x0A#8] = 0xCDC5#16
    ∧ crc16 [0x01#8, 0x10#8, 0x00#8, 0x01#8, 0x00#8, 0x02#8, 0x04#8, 0x00#8, 0x0A#8, 0x01#8, 0x02#8] = 0x3092#16 := by
  decide +kernel

theorem test_crcInit : gives (cmd 0x01000000#32 (State.reset.setCrcReg 0x1234#16))
    (fun t => t.hostRead 0x008#12 == 0x0000FFFF#32) = true := by decide +kernel

/-- V-C13. -/
theorem test_crcFeed_low_byte : gives (cmd 0x02000000#32 (withArg0 0x00000100#32))
    (fun t => t.hostRead 0x008#12 == 0x000040BF#32) = true := by decide +kernel

/-- V-C3. -/
theorem test_crcFeed_from_zero : gives (cmd 0x02000000#32 ((withArg0 1#32).setCrcReg 0#16))
    (fun t => t.crcReg == 0xC0C1#16) = true := by decide +kernel

/-! ## Reads: V-S1, V-E1, V-E2, P2 -/

theorem test_readPosition : gives (cmd 0x10010100#32 State.reset)
    (fun t => t.hostRead 0x00D#12 == 0x80000101#32 && t.hostRead 0x007#12 == 3#32
      && t.hostRead 0x00C#12 == 0x00010003#32) = true := by decide +kernel

theorem test_readPosition_above : gives (cmd 0x10010300#32 State.reset)
    (fun t => t.err == 0x002#10 && t.pendingReads.isEmpty) = true := by decide +kernel

theorem test_readStatus : gives (cmd 0x10000200#32 State.reset)
    (fun t => t.hostRead 0x00D#12 == 0x80000002#32) = true := by decide +kernel

/-- V-E10: the check order. -/
theorem test_readStatus_zero_full : gives (cmd 0x10000000#32
    (State.reset.setReads (List.replicate 4 (rd 1#8 .status .created 0#32 3#32))))
    (fun t => t.err == 0x002#10 && t.pendingReads.length == 4) = true := by decide +kernel

/-! ## Writes: V-F6 to V-F20 -/

theorem test_rioStart : gives (cmd 0x20000100#32 State.reset)
    (fun t => lines t == [rioFrame 0x01#8 0x26#8 0x9F#8]) = true := by decide +kernel
theorem test_rioHome : gives (cmd 0x20010100#32 State.reset)
    (fun t => lines t == [rioFrame 0x02#8 0x66#8 0x9E#8]) = true := by decide +kernel
theorem test_rioStop : gives (cmd 0x20020100#32 State.reset)
    (fun t => lines t == [rioFrame 0x04#8 0xE6#8 0x9C#8]) = true := by decide +kernel
theorem test_rioFree : gives (cmd 0x20030100#32 State.reset)
    (fun t => lines t == [rioFrame 0x08#8 0xE6#8 0x99#8]) = true := by decide +kernel
theorem test_rioReset : gives (cmd 0x20040100#32 State.reset)
    (fun t => lines t == [rioFrame 0x10#8 0xE6#8 0x93#8]) = true := by decide +kernel
theorem test_rioJogFwd : gives (cmd 0x20050100#32 State.reset)
    (fun t => lines t == [rioFrame 0x20#8 0xE6#8 0x87#8]) = true := by decide +kernel
theorem test_rioJogBwd : gives (cmd 0x20060100#32 State.reset)
    (fun t => lines t == [rioFrame 0x40#8 0xE6#8 0xAF#8]) = true := by decide +kernel
theorem test_rioClear : gives (cmd 0x20070100#32 State.reset)
    (fun t => lines t == [rioFrame 0x80#8 0xE6#8 0xFF#8]) = true := by decide +kernel

/-- V-E9: the fifth write of a queue of four. -/
theorem test_rioStop_full : gives (cmd 0x20020100#32 (State.reset.setWrites (List.replicate 4 stop1)))
    (fun t => t.err == 0x004#10 && t.pendingWrites.length == 4) = true := by decide +kernel

/-- V-F9. -/
theorem test_netsel : gives (cmd 0x21000200#32 (withArg0 2#32)) (fun t => lines t ==
    [[0x02#8, 0x10#8, 0x05#8, 0x00#8, 0x00#8, 0x02#8, 0x04#8, 0x00#8, 0x00#8, 0x00#8, 0x02#8, 0x42#8, 0x7A#8]])
    = true := by decide +kernel

/-- V-F11: a negative count. -/
theorem test_jogsteps : gives (cmd 0x22000100#32 (withArg0 0xFFFFFF9C#32)) (fun t => lines t ==
    [[0x01#8, 0x10#8, 0x07#8, 0x00#8, 0x00#8, 0x02#8, 0x04#8, 0xFF#8, 0xFF#8, 0xFF#8, 0x9C#8, 0x94#8, 0x22#8]])
    = true := by decide +kernel

/-- V-F15. -/
theorem test_jogspeed : gives (cmd 0x23000000#32 (withArg0 1000#32)) (fun t => lines t ==
    [[0x00#8, 0x10#8, 0x07#8, 0x10#8, 0x00#8, 0x02#8, 0x04#8, 0x00#8, 0x00#8, 0x03#8, 0xE8#8, 0xD0#8, 0xD1#8]])
    = true := by decide +kernel

/-- V-F16. -/
theorem test_origin : gives (cmd 0x24000200#32 (withArg0 0xFFFFFFFF#32)) (fun t => lines t ==
    [[0x02#8, 0x10#8, 0x07#8, 0x20#8, 0x00#8, 0x02#8, 0x04#8, 0xFF#8, 0xFF#8, 0xFF#8, 0xFF#8, 0xD9#8, 0x57#8]])
    = true := by decide +kernel

/-- V-F17. -/
theorem test_dd : gives (cmd 0x25000100#32 { State.reset with args := ⟨1000, 2000, 3000, 3000, 500, 1⟩ })
    (fun t => lines t == [[0x01#8, 0x10#8, 0x06#8, 0x00#8, 0x00#8, 0x0C#8, 0x18#8, 0x00#8, 0x00#8, 0x03#8, 0xE8#8,
      0x00#8, 0x00#8, 0x07#8, 0xD0#8, 0x00#8, 0x00#8, 0x0B#8, 0xB8#8, 0x00#8, 0x00#8, 0x0B#8, 0xB8#8, 0x00#8, 0x00#8,
      0x01#8, 0xF4#8, 0x00#8, 0x00#8, 0x00#8, 0x01#8, 0x0B#8, 0xF0#8]]) = true := by decide +kernel

theorem test_batchPos : gives (cmd 0x26000000#32 sevens)
    (fun t => lines t == [batchFrame 0x00#8 0x8D#8 0xFC#8]) = true := by decide +kernel
theorem test_batchVel : gives (cmd 0x26010000#32 sevens)
    (fun t => lines t == [batchFrame 0x10#8 0x4C#8 0x03#8]) = true := by decide +kernel
theorem test_batchMode : gives (cmd 0x26020000#32 sevens)
    (fun t => lines t == [batchFrame 0x20#8 0x0C#8 0x43#8]) = true := by decide +kernel
theorem test_batchAcc : gives (cmd 0x26030000#32 sevens)
    (fun t => lines t == [batchFrame 0x30#8 0xCD#8 0xBC#8]) = true := by decide +kernel
theorem test_batchDec : gives (cmd 0x26040000#32 sevens)
    (fun t => lines t == [batchFrame 0x40#8 0x8C#8 0xC3#8]) = true := by decide +kernel

/-- V-F18: the motors in order. -/
theorem test_batchPos_order : gives (cmd 0x26000000#32
      (State.reset.setRb { State.reset.rb with pos := [1000, 0xFFFFFFFF] })) (fun t => lines t ==
    [[0x00#8, 0x10#8, 0x04#8, 0x00#8, 0x00#8, 0x04#8, 0x08#8, 0x00#8, 0x00#8, 0x03#8, 0xE8#8, 0xFF#8, 0xFF#8, 0xFF#8,
      0xFF#8, 0x18#8, 0x4E#8]]) = true := by decide +kernel

/-- 43_scheduler.md R234: the second write becomes the head. -/
theorem test_cancel : gives (cmd 0x27000000#32 ((withArg0 0#32).setWrites [stop1, bodyWrite 2#8 0x0300#16 [4#32]]))
    (fun t => t.pendingWrites == [bodyWrite 2#8 0x0300#16 [4#32]] && t.err == 0#10) = true := by decide +kernel

/-- V-E7. -/
theorem test_cancel_empty : gives (cmd 0x27000000#32 State.reset) (fun t => t.err == 0x200#10) = true := by
  decide +kernel

/-! ## Staging: V-R6 to V-R8, P3 -/

theorem test_stagePos_all : gives (cmd 0x30000000#32 (withArg0 1000#32))
    (fun t => t.hostRead 0x101#12 == 1000#32 && t.hostRead 0x102#12 == 1000#32 && t.hostRead 0x100#12 == 0#32)
    = true := by decide +kernel
theorem test_stagePos_one : gives (cmd 0x30000200#32 (withArg0 0xFFFFFFFF#32))
    (fun t => t.hostRead 0x101#12 == 0#32 && t.hostRead 0x102#12 == 0xFFFFFFFF#32) = true := by decide +kernel
theorem test_stageVel_above : gives (cmd 0x30010300#32 (withArg0 9#32))
    (fun t => t.err == 0x002#10 && t.rb == State.reset.rb) = true := by decide +kernel
theorem test_stageVel : gives (cmd 0x30010100#32 (withArg0 9#32)) (fun t => t.hostRead 0x141#12 == 9#32)
    = true := by decide +kernel
theorem test_stageMode : gives (cmd 0x30020100#32 (withArg0 9#32)) (fun t => t.hostRead 0x181#12 == 9#32)
    = true := by decide +kernel
theorem test_stageAcc : gives (cmd 0x30030100#32 (withArg0 9#32)) (fun t => t.hostRead 0x1C1#12 == 9#32)
    = true := by decide +kernel
theorem test_stageDec : gives (cmd 0x30040100#32 (withArg0 9#32)) (fun t => t.hostRead 0x201#12 == 9#32)
    = true := by decide +kernel
theorem test_stageCur : gives (cmd 0x30050100#32 (withArg0 200#32)) (fun t => t.hostRead 0x241#12 == 200#32)
    = true := by decide +kernel

/-! ## The tick: V-S2 to V-S10 -/

/-- V-S2, V-F1. -/
theorem test_tick_sends_the_read : gives (cmd 0x40000000#32 (reading [rd 1#8 .position .created 0#32 3#32] []))
    (fun t => t.env.tx == [[0x01#8, 0x03#8, 0x02#8, 0x00#8, 0x00#8, 0x02#8, 0xC5#8, 0xB3#8]]
      && t.hostRead 0x00D#12 == 0x80000301#32 && t.hostRead 0x00E#12 == 0#32 && t.cntTx == 1#32) = true := by
  decide +kernel

/-- V-S3. -/
theorem test_tick_resolves :
    gives (cmd 0x40000000#32 (reading [rd 1#8 .position .awaitingResponse 0#32 3#32] f1))
    (fun t => t.hostRead 0x021#12 == 1000#32 && t.hostRead 0x0A1#12 == 0x00000002#32 && t.cntResolved == 1#32
      && t.hostRead 0x00C#12 == 0x00000001#32) = true := by decide +kernel

/-- V-S4. -/
theorem test_tick_unsolicited : gives (cmd 0x40000000#32 (reading [] f1))
    (fun t => t.cntUnsol == 1#32 && t.err == 0#10 && t.results == State.reset.results) = true := by decide +kernel

/-- V-S5: a timeout of 0 falls on the first counting tick. -/
theorem test_tick_timeout_zero :
    gives (cmd 0x40000000#32 (reading [rd 1#8 .status .awaitingResponse 0#32 0#32] []))
    (fun t => t.err == 0x010#10 && t.cntTimeout == 1#32 && t.pendingReads.isEmpty) = true := by decide +kernel

/-- V-S6: the late response. -/
theorem test_tick_late_response : gives (cmd 0x40000000#32
      (reading [rd 1#8 .status .awaitingResponse 2#32 3#32, rd 2#8 .position .created 0#32 3#32] g1))
    (fun t => t.err == 0x010#10 && t.hostRead 0x022#12 == 0x20#32 && t.hostRead 0x0A2#12 == 2#32
      && t.hostRead 0x061#12 == 0#32 && t.pendingReads.isEmpty && t.env.tx.isEmpty) = true := by decide +kernel

/-- V-S9. -/
theorem test_tick_badLen : gives (cmd 0x40000000#32 (reading [rd 1#8 .position .awaitingResponse 0#32 3#32]
      [0x01#8, 0x03#8, 0x02#8, 0x12#8, 0x34#8, 0xB5#8, 0x33#8]))
    (fun t => t.err == 0x020#10 && t.cntResolved == 1#32 && t.pendingReads.isEmpty
      && t.results == State.reset.results) = true := by decide +kernel

/-- V-S10. -/
theorem test_tick_closed : gives (cmd 0x40000000#32
      ((reading [rd 1#8 .position .awaitingResponse 0#32 3#32] f1).setOpen false))
    (fun t => t.hostRead 0x00E#12 == 0#32 && t.cntTick == 0#32 && t.env.rx == f1) = true := by decide +kernel

/-- P2, tick 5: the write leaves with its trailer. -/
theorem test_tick_sends_the_write :
    gives (cmd 0x40000000#32 (State.reset.setWrites [bodyWrite 0#8 0x0300#16 [4#32]]))
    (fun t => t.env.tx == [[0x00#8, 0x10#8, 0x03#8, 0x00#8, 0x00#8, 0x02#8, 0x04#8, 0x00#8, 0x00#8, 0x00#8, 0x04#8,
      0xE2#8, 0x60#8]] && t.pendingWrites.isEmpty) = true := by decide +kernel

/-- V-R3. -/
theorem test_flags_decode : gives (cmd 0x40000000#32 (reading [rd 2#8 .status .awaitingResponse 0#32 3#32]
      [0x02#8, 0x03#8, 0x04#8, 0x00#8, 0x00#8, 0xA0#8, 0x20#8, 0xB0#8, 0xEB#8]))
    (fun t => t.hostRead 0x0A2#12 == 0x00001301#32) = true := by decide +kernel

/-- V-R4. -/
theorem test_flags_broadcast :
    (State.reset.setResults (List.replicate 2 { MotorResult.reset with stat := 0x20#32 })).hostRead 0x0A0#12
      = 0x00002000#32 ∧ State.reset.hostRead 0x0A0#12 = 0#32 := by decide +kernel

/-! ## The ticker: V-S12, V-S13 -/

theorem test_update_fires_at_the_interval :
    gives (cmd 0x41000000#32 (withArg0 50#32)) (fun t => t.timeRef == 50#32 && t.cntTick == 1#32) = true
      ∧ gives (cmd 0x41000000#32 (withArg0 49#32)) (fun t => t.timeRef == 0#32 && t.cntTick == 0#32) = true := by
  decide +kernel

theorem test_update_wraps : gives (cmd 0x41000000#32 ((withArg0 0x22#32).setTimeRef 0xFFFFFFF0#32))
    (fun t => t.timeRef == 0x22#32 && t.cntTick == 1#32) = true := by decide +kernel

/-! ## Frames on the line, and the parser: V-P1 to V-P13 -/

theorem test_wireReadResp : gives (State.reset.setAgenda [.lineBytes f1])
    (fun t => t == State.reset.receive f1) = true := by decide +kernel

/-- V-P7: 8 bytes that are no row of the table still arrive. -/
theorem test_any_bytes_arrive : gives (State.reset.setAgenda
      [.lineBytes [0x01#8, 0x10#8, 0x03#8, 0x00#8, 0x00#8, 0x02#8, 0x41#8, 0x8C#8]])
    (fun t => t.env.rx.length == 8) = true := by decide +kernel

/-- V-P1. -/
theorem test_parser_accepts : (State.reset.feed f1).ready =
    [{ stationId := 1#8, function := 3#8, byteCount := 4#8, data := [0x00#8, 0x00#8, 0x03#8, 0xE8#8],
       crc16 := 0x8DFA#16 }] ∧ (State.reset.feed f1).parser.state = .address := by decide +kernel

/-- V-P2: no data. -/
theorem test_parser_size_zero : (State.reset.feed [0x01#8, 0x03#8, 0x00#8, 0x20#8, 0xF0#8]).ready.map Response.data
    = [[]] := by decide +kernel

/-- V-P4. -/
theorem test_parser_crc_error :
    (State.reset.feed [0x01#8, 0x03#8, 0x04#8, 0x00#8, 0x00#8, 0x03#8, 0xE8#8, 0xFA#8, 0x8C#8]).hostRead 0x009#12
      = 0x008#32 := by decide +kernel

/-- V-P5: one noise byte loses the second frame. -/
theorem test_parser_noise : (State.reset.feed (f1 ++ [0x55#8] ++ f2)).ready.length = 1
    ∧ (State.reset.feed (f1 ++ [0x55#8] ++ f2)).cntCrcErr = 1#32
    ∧ (State.reset.feed (f1 ++ [0x55#8] ++ f2)).parser.state = .size := by decide +kernel

/-- V-P8. -/
theorem test_parser_swallows :
    let t := State.reset.feed ([0x01#8, 0x10#8, 0x00#8, 0x7D#8, 0x00#8, 0x02#8, 0xD1#8, 0xD0#8] ++ f1)
    t.parser.state = .data ∧ t.parser.idx = 9#8 ∧ t.ready = [] := by decide +kernel

/-- V-P13: a ready queue of one. -/
theorem test_parser_overflow :
    let t := ({ State.reset with params := { Params.vectorValues with readyDepth := 1 } } : State).feed (f1 ++ f2)
    t.ready.length = 1 ∧ t.err = 0x080#10 := by decide +kernel

/-! ## The window: V-E3, V-E8, V-E11, V-S15 -/

theorem test_badCmd : gives (cmd 0x00000001#32 State.reset)
    (fun t => t.err == 0x001#10 && t.hostRead 0x000#12 == 0x00000001#32) = true := by decide +kernel

theorem test_badReg : gives (wr 0x008#12 0#32 State.reset)
    (fun t => t.err == 0x100#10 && t.crcReg == 0xFFFF#16) = true := by decide +kernel

theorem test_clear_errors : gives (wr 0x009#12 0xFFFFFFFF#32 ((State.reset.raise .badCmd).raise .cancelMiss))
    (fun t => t.err == 0#10) = true := by decide +kernel

theorem test_badCfg : gives (wr 0x00A#12 0#32 State.reset)
    (fun t => t.err == 0x040#10 && t.cfgInterval == 50#32) = true := by decide +kernel

/-! ## Witnesses: the hypotheses of each statement, met together -/

/-- A queue of `n` reads. -/
def readQueue (n : Nat) : State := State.reset.setReads (List.replicate n (rd 1#8 .status .created 0#32 3#32))

/-- A queue of `n` writes. -/
def writeQueue (n : Nat) : State := State.reset.setWrites (List.replicate n stop1)

theorem witness_StepRunsTheDecodedCommand :
    (cmd 0x40000000#32 State.reset).env.agenda = [.hostWrite 0x000#12 0x40000000#32]
      ∧ decode (.command 0x40000000#32) = .ok .tick
      ∧ (cmd 1#32 State.reset).env.agenda = [.hostWrite 0x000#12 1#32]
      ∧ decode (.command 1#32) = .error .badOp := by decide +kernel

theorem witness_StepRunsTheDecodedFrame :
    (State.reset.setAgenda [.lineBytes f1]).env.agenda = [.lineBytes f1]
      ∧ decode (.frame f1) = .ok (.wireReadResp 1#8 3#8 1000#32 0x8DFA#16)
      ∧ (State.reset.setAgenda [.lineBytes [1#8]]).env.agenda = [.lineBytes [1#8]]
      ∧ decode (.frame [1#8]) = .error .badLength := by decide +kernel

/-- Both sides of each bound of O4. -/
theorem witness_IllegalWordsAreTheFourConditions :
    ([0x01000000#32, 0x10010000#32, 0x1000FF00#32, 0x20070000#32, 0x25000000#32, 0x26040000#32, 0x27000000#32,
        0x3005FF00#32, 0x41000000#32].all fun w => (decode (.command w)).toOption.isSome) = true
      ∧ ([0x00000000#32, 0x01010000#32, 0x01000100#32, 0x10020000#32, 0x20080000#32, 0x25010000#32, 0x26050000#32,
        0x26000100#32, 0x30060000#32, 0x41000001#32, 0x42000000#32].all fun w =>
          (decode (.command w)).toOption.isNone) = true := by decide +kernel

theorem witness_DecodeOfEncodeIsIdentity :
    (Instr.wireWriteBatch 0#16 (List.replicate 2 0#32) 0#16).shapeOk = true
      ∧ (Instr.wireWriteBatch 0#16 (List.replicate 60 0#32) 0#16).shapeOk = true
      ∧ (Instr.readStatus 0xFF#8).shapeOk = true := by decide +kernel

theorem witness_EncodeOfDecodeIsIdentity : decode (.command 0x26000000#32) = .ok .batchPos
    ∧ decode (.frame f2) = .ok (.wireReadResp 2#8 3#8 0x20#32 0xEBC8#16) := by decide +kernel

theorem witness_CodecFramesAreWireRows : ∀ n ∈ [2, 60], 1 < (List.replicate n (0 : Word)).length
    ∧ (List.replicate n (0 : Word)).length ≤ 60 ∧ (List.replicate n (0 : Word)).length ≠ 6 := by decide +kernel

/-- Words that the BADCMD clauses of O11, O12, O14 to O18, O20, O21 and O35 name: the first SEL too many, RSV not
0, ID not 0. -/
theorem witness_RefusesOtherWords :
    ([(0x01010000, 0x01, 0), (0x02000001, 0x02, 0), (0x10020000, 0x10, 1), (0x20080000, 0x20, 7), (0x24000001, 0x24, 0),
        (0x25010000, 0x25, 0), (0x26050000, 0x26, 4), (0x30060000, 0x30, 5)].all fun (w, op, sel) => decide
      (w / 2 ^ 24 = op ∧ (sel < w / 2 ^ 16 % 256 ∨ w % 256 ≠ 0))) = true
    ∧ ([(0x26000100, 0x26), (0x27000100, 0x27), (0x41000100, 0x41)].all fun (w, op) => decide
      (w / 2 ^ 24 = op ∧ w / 2 ^ 8 % 256 ≠ 0)) = true := by decide +kernel

theorem witness_CrcFeedExtendsTheCrc : State.reset.crcReg = crc16 []
    ∧ (State.reset.setCrcReg 0x707F#16).crcReg = crc16 [0x41#8] := by decide +kernel

/-- Ids 0 and 3 (refused), 1 and 2 (served), with the queue full and one short of full. -/
theorem witness_ReadCommandsQueueARequest :
    State.reset.params.nMotors < (3#8).toNat ∧ (2#8).toNat ≤ State.reset.params.nMotors ∧ (1#8) ≠ 0#8
      ∧ (readQueue 4).pendingReads.length = (readQueue 4).params.rqDepth
      ∧ (readQueue 3).pendingReads.length ≠ (readQueue 3).params.rqDepth
      ∧ (Instr.readStatus 1#8, RegKind.status, 0x10000000) ∈ [(Instr.readStatus 1#8, RegKind.status, 0x10000000),
          (Instr.readPosition 1#8, RegKind.position, 0x10010000)] := by decide +kernel

/-- The write queue full and one short of full: O15 to O19. -/
theorem witness_write_commands :
    (writeQueue 4).pendingWrites.length = (writeQueue 4).params.wqDepth
      ∧ (writeQueue 3).pendingWrites.length ≠ (writeQueue 3).params.wqDepth
      ∧ (writeQueue 3).rb.Sized (writeQueue 3).params.nMotors
      ∧ (writeQueue 4).rb.Sized (writeQueue 4).params.nMotors := by decide +kernel

theorem witness_RioCommandsQueueTheirMask : (Instr.rioClear 1#8, 7, State.reset.params.rioMask.clear) ∈
    [(Instr.rioStart 1#8, 0, State.reset.params.rioMask.start), (Instr.rioClear 1#8, 7,
      State.reset.params.rioMask.clear)] := by decide +kernel

theorem witness_Arg0CommandsQueueArg0 : (Instr.origin 2#8, 0x24, State.reset.params.addrOrigin) ∈
    [(Instr.netsel 2#8, 0x21, State.reset.params.addrNetsel), (Instr.origin 2#8, 0x24,
      State.reset.params.addrOrigin)] := by decide +kernel

theorem witness_BatchCommandsQueueTheBuffer :
    (Instr.batchDec, 4, sevens.params.addrBatch.dec, sevens.rb.dec) ∈
      [(Instr.batchPos, 0, sevens.params.addrBatch.pos, sevens.rb.pos),
        (Instr.batchDec, 4, sevens.params.addrBatch.dec, sevens.rb.dec)]
      ∧ sevens.rb.Sized sevens.params.nMotors := by decide +kernel

/-- The last index of a queue of two, and the first beyond it. -/
theorem witness_CancelRemovesOneWrite :
    ((writeQueue 2).setArg 0 1#32).args.arg0.toNat < ((writeQueue 2).setArg 0 1#32).pendingWrites.length
      ∧ ((writeQueue 2).setArg 0 2#32).pendingWrites.length ≤ ((writeQueue 2).setArg 0 2#32).args.arg0.toNat := by
  decide +kernel

theorem witness_StageWritesItsSlots : State.reset.rb.Sized State.reset.params.nMotors
    ∧ (0#8).toNat ≤ State.reset.params.nMotors ∧ (2#8).toNat ≤ State.reset.params.nMotors
    ∧ State.reset.params.nMotors < (3#8).toNat := by decide +kernel

theorem witness_RefusedCommandsChangeOnlyErr : Instr.cancel ≠ .tick ∧ Instr.cancel ≠ .update := by decide +kernel

theorem witness_ClosedTick : (State.reset.setOpen false).env.isOpen = false := by decide +kernel

/-- A read not sent, a read sent, a write alone, nothing: O24 and O25. -/
theorem witness_OpenTickTransmits :
    State.reset.env.isOpen = true ∧ State.reset.env.rx = [] ∧ State.reset.ready = []
      ∧ (readQueue 1).pendingReads = [rd 1#8 .status .created 0#32 3#32]
      ∧ (reading [rd 1#8 .status .awaitingResponse 1#32 3#32] []).pendingReads
          = [rd 1#8 .status .awaitingResponse 1#32 3#32]
      ∧ (1#32 + 1#32 < 3#32) ∧ (3#32 ≤ 2#32 + 1#32)
      ∧ (writeQueue 1).pendingReads = [] ∧ (writeQueue 1).pendingWrites = [stop1]
      ∧ State.reset.pendingWrites = [] := by decide +kernel

/-- Thresholds 1 (the least) and 3. -/
theorem witness_TimeoutFallsOnTheExactTick : ([1#32, 3#32].all fun n =>
    let s := reading [rd 1#8 .status .created 0#32 n] []
    decide (s.env.isOpen = true ∧ s.env.rx = [] ∧ s.ready = [] ∧ s.pendingReads = [rd 1#8 .status .created 0#32 n]
      ∧ 1 ≤ n.toNat)) = true := by decide +kernel

theorem witness_ResultsChangeOnlyForQueuedReads : ∀ r ∈ (readQueue 2).pendingReads, r.motorId.toNat ≠ 2 := by
  decide +kernel

/-- No data and the most data; the ready queue with room and full; a right and a wrong trailer. -/
theorem witness_ParserTakesOneFrame :
    State.reset.parser.state = .address ∧ State.reset.parser.data.length = 255
      ∧ ([] : List Byte).length ≤ 255 ∧ (List.replicate 255 (0 : Byte)).length ≤ 255
      ∧ State.reset.ready.length < State.reset.params.readyDepth
      ∧ ((State.reset.feed (f1 ++ f1 ++ f1 ++ f1)).params.readyDepth
          ≤ (State.reset.feed (f1 ++ f1 ++ f1 ++ f1)).ready.length
        ∧ (State.reset.feed (f1 ++ f1 ++ f1 ++ f1)).parser.state = .address)
      ∧ BitVec.ofNat 16 ((0x20#8).toNat + 256 * (0xF0#8).toNat) = crc16 [0x01#8, 0x03#8, byteOf 0 0]
      ∧ BitVec.ofNat 16 ((0x20#8).toNat + 256 * (0xF1#8).toNat) ≠ crc16 [0x01#8, 0x03#8, byteOf 0 0] := by
  decide +kernel

/-- A state that listens, with the last motor's read not sent, or sent and one count short of its threshold. -/
theorem witness_Listening : ∀ q ∈ [rd 2#8 .status .created 0#32 3#32, rd 2#8 .status .awaitingResponse 1#32 3#32],
    let s := reading [q] (responseFrame 2#8 3#8 (bytes32 0x20#32))
    (s.env.isOpen = true ∧ s.parser.state = .address ∧ s.parser.data.length = 255 ∧ s.ready = []
        ∧ 1 ≤ s.params.readyDepth ∧ s.results.length = s.params.nMotors)
      ∧ s.pendingReads = [q] ∧ 1 ≤ q.motorId.toNat ∧ q.motorId.toNat ≤ s.params.nMotors
      ∧ (q.state = .created ∨ q.ticksWaited + 1#32 < q.timeoutTicks)
      ∧ s.env.rx = responseFrame 2#8 3#8 (bytes32 0x20#32) := by decide +kernel

/-- O31: data lengths 0, 3, 5 and 255. O32: no read queued. -/
theorem witness_OtherLengths : (∀ n ∈ [0, 3, 5, 255], (List.replicate n (0 : Byte)).length ≤ 255
      ∧ (List.replicate n (0 : Byte)).length ≠ 4)
    ∧ (reading [] (responseFrame 1#8 3#8 [])).pendingReads = [] := by decide +kernel

/-- O33: the threshold reached in this tick. -/
theorem witness_LateResponse :
    let q := rd 1#8 .status .awaitingResponse 2#32 3#32
    let s := reading [q, rd 2#8 .position .created 0#32 3#32] (responseFrame 1#8 3#8 (bytes32 0x20#32))
    q.state = .awaitingResponse ∧ q.timeoutTicks ≤ q.ticksWaited + 1#32
      ∧ s.pendingReads = [q, rd 2#8 .position .created 0#32 3#32] ∧ (2#8).toNat ≤ s.params.nMotors
      ∧ s.env.rx = responseFrame 1#8 3#8 (bytes32 0x20#32) := by decide +kernel

/-- From ADDRESS and from the middle of the data. -/
theorem witness_FrameAttemptEnds : State.reset.parser.idxOk = true
    ∧ (State.reset.feed [0x01#8, 0x03#8, 0xFF#8, 0x00#8]).parser.idxOk = true
    ∧ 260 ≤ (List.replicate 260 (0 : Byte)).length := by decide +kernel

/-- Elapsed time just below the interval and equal to it; the interval is not 0: O35, O36. -/
theorem witness_Update : State.reset.cfgInterval ≠ 0#32
    ∧ ((withArg0 49#32).args.arg0.toNat + 2 ^ 32 - (withArg0 49#32).timeRef.toNat) % 2 ^ 32 < 50
    ∧ State.reset.cfgInterval.toNat
        ≤ ((withArg0 50#32).args.arg0.toNat + 2 ^ 32 - (withArg0 50#32).timeRef.toNat) % 2 ^ 32 := by decide +kernel

theorem reset_inv : State.reset.Inv := by decide +kernel

/-- O38, with a step that does something: the invariant holds and the step answers a next state. -/
theorem witness_EveryStepKeepsTheInvariant : (cmd 0x10010100#32 State.reset).Inv
    ∧ gives (cmd 0x10010100#32 State.reset) (fun t => t.pendingReads.length == 1) = true := by decide +kernel

/-- The least and the greatest parameters. -/
theorem witness_ResetMeetsTheInvariant : Params.vectorValues.Ok
    ∧ ({ Params.vectorValues with nMotors := 1, wqDepth := 1, rqDepth := 1, readyDepth := 1 } : Params).Ok
    ∧ ({ Params.vectorValues with nMotors := 60, wqDepth := 255, rqDepth := 255 } : Params).Ok := by decide +kernel

/-- O40: a step that sends. O42: a step that is no reset, and a valid bit that is set. -/
theorem witness_steps : gives (cmd 0x40000000#32 (writeQueue 1)) (fun t => t.env.tx.length == 1) = true
    ∧ (cmd 0x40000000#32 State.reset).env.agenda.head? ≠ some .reset
    ∧ ((State.reset.applyStatus 2 1#32).result 2).svalid = true
    ∧ ((State.reset.applyPosition 2 1#32).result 2).pvalid = true := by decide +kernel

/-- No action to come (O43), the others of O50, O56, O58. -/
theorem witness_agendas : State.reset.env.agenda = []
    ∧ (State.reset.setAgenda [.hostRead 0x008#12]).env.agenda = [.hostRead 0x008#12]
    ∧ (State.reset.setAgenda [.reset]).env.agenda = [.reset]
    ∧ (State.reset.setAgenda [.setOpen false]).env.agenda = [.setOpen false] := by decide +kernel

/-- The bounds of the reserved ranges (O45) and read-only offsets beside writable ones (O47). -/
theorem witness_offsets :
    ([0x016#12, 0x01F#12, 0x0E0#12, 0x0FF#12, 0x280#12, 0xFFF#12].all fun off => decide
      ((0x016 ≤ off.toNat ∧ off.toNat < 0x020) ∨ (0x0E0 ≤ off.toNat ∧ off.toNat < 0x100) ∨ 0x280 ≤ off.toNat)) = true
    ∧ ([0x007#12, 0x008#12, 0x00C#12, 0xFFF#12].all fun off => decide
      (off.toNat ∉ [0x000, 0x001, 0x002, 0x003, 0x004, 0x005, 0x006, 0x009, 0x00A, 0x00B])) = true := by
  decide +kernel

/-- An interval that is not 0 (O48). -/
theorem witness_WindowWritesErrAndConfig : (1#32) ≠ 0#32 := by decide +kernel

/-- Counts at the bound of their fields (O51). -/
theorem witness_StatusFields : (writeQueue 255).pendingWrites.length ≤ 255 ∧ (readQueue 255).pendingReads.length ≤ 255
    := by decide +kernel

/-- A queue with a head (O52). -/
theorem witness_HeadFields : (readQueue 1).pendingReads = [rd 1#8 .status .created 0#32 3#32]
    ∧ State.reset.pendingReads = [] := by decide +kernel

/-- The first and the last motor (O53), the first id above and the last of the window (O54). -/
theorem witness_FlagsFields : State.reset.params.nMotors < 64 ∧ 1 ≤ 1 ∧ 2 ≤ State.reset.params.nMotors
    ∧ State.reset.params.nMotors < 3 ∧ State.reset.params.nMotors < 63 := by decide +kernel

/-- O59: no frame and as many frames as the ready queue holds; two reads and two whole frames in one tick. -/
theorem witness_ResponsesResolveReadsInOrder :
    State.reset.parser.state = .address ∧ State.reset.parser.data.length = 255
      ∧ State.reset.ready.length + ([] : List (Byte × Byte × List Byte)).length ≤ State.reset.params.readyDepth
      ∧ State.reset.ready.length
          + (List.replicate State.reset.params.readyDepth ((1#8, 3#8, []) : Byte × Byte × List Byte)).length
          ≤ State.reset.params.readyDepth
      ∧ (List.replicate 255 (0 : Byte)).length ≤ 255
      ∧ (let s := reading [rd 1#8 .position .created 0#32 3#32, rd 2#8 .position .created 0#32 3#32] (f1 ++ f2)
        s.env.isOpen = true ∧ s.results.length = s.params.nMotors) := by decide +kernel

/-- V-P1 twice in one tick (70_reset_and_hazards.md R382): two reads take their values in the order of arrival. -/
theorem test_tick_two_responses :
    gives (cmd 0x40000000#32
      (reading [rd 1#8 .position .created 0#32 3#32, rd 2#8 .position .created 0#32 3#32] (f1 ++ f2)))
    (fun t => t.hostRead 0x021#12 == 1000#32 && t.hostRead 0x022#12 == 0x20#32 && t.pendingReads.isEmpty
      && t.cntResolved == 2#32 && t.err == 0#10) = true := by decide +kernel

/-- O60: nothing, the first byte, and all but the last byte in the first tick. -/
theorem witness_FramesMaySpanTicks : ([0, 1, 8].all fun n =>
    let q := rd 1#8 .position .created 0#32 3#32
    let frame := responseFrame 1#8 3#8 (bytes32 1000#32)
    let s := reading [q] (frame.take n)
    decide (s.env.isOpen = true ∧ s.parser.state = .address ∧ s.parser.data.length = 255 ∧ s.ready = []
      ∧ 1 ≤ s.params.readyDepth ∧ s.results.length = s.params.nMotors ∧ s.pendingReads = [q]
      ∧ q.ticksWaited + 1#32 < q.timeoutTicks ∧ 1 ≤ q.motorId.toNat ∧ q.motorId.toNat ≤ s.params.nMotors
      ∧ s.env.rx ++ frame.drop n = frame ∧ frame.drop n ≠ [])) = true := by decide +kernel

end Sys2Proof.Tests
end

/-! # The state and the host window: O38, O41, O42, O45, O46, O48 to O52, O55, O58 -/

section

namespace Sys2Proof.Machine

open Sys2Proof Sys2Proof.Claims

/-! ## What each shared operation can change, as a frame -/

theorem State.enqueueWrite_frame (s : State) (body : List Byte) :
    s.enqueueWrite body = { s with
      err := (s.enqueueWrite body).err, pendingWrites := (s.enqueueWrite body).pendingWrites } := by
  rcases s.enqueueWrite_cases body with ⟨-, e⟩ | ⟨-, e⟩ <;> rw [e] <;> rfl

theorem State.issueRead_frame (s : State) (k : RegKind) (m : Byte) :
    s.issueRead k m = { s with
      err := (s.issueRead k m).err, pendingReads := (s.issueRead k m).pendingReads } := by
  rcases s.issueRead_cases k m with ⟨-, e⟩ | ⟨-, -, e⟩ | ⟨-, -, e⟩ <;> rw [e] <;> rfl

theorem State.cancelWrite_frame (s : State) (i : Nat) :
    s.cancelWrite i = { s with
      err := (s.cancelWrite i).err, pendingWrites := (s.cancelWrite i).pendingWrites } := by
  rcases s.cancelWrite_cases i with ⟨-, e⟩ | ⟨-, e⟩ <;> rw [e] <;> rfl

theorem State.stage_frame (s : State) (k : RbKind) (m : Nat) (v : Word) :
    s.stage k m v = { s with err := (s.stage k m v).err, rb := (s.stage k m v).rb } := by
  rcases s.stage_cases k m v with ⟨-, e⟩ | ⟨-, e⟩ | ⟨-, e⟩ <;> rw [e] <;> rfl

/-- `raise` is the setting of the flag's own bit (60_exceptions.md R331). -/
theorem State.raise_eq_flagged (s : State) (e : ErrFlag) : s.raise e = flagged s e.code := by
  cases e <;> rfl

/-! ## Which shared operation each instruction is -/

/-- The next state of an instruction, by the shared operation that makes it; unlike `exec_cases` it names the class of
the instruction in every case. -/
inductive ExecEffect (s : State) : Instr → State → Prop where
  | crc {i : Instr} (hi : i = .crcInit ∨ i = .crcFeed) (c : Half) : ExecEffect s i (s.setCrcReg c)
  | read {i : Instr} (m : Byte) (hi : i = .readStatus m ∨ i = .readPosition m) (k : RegKind) :
      ExecEffect s i (s.issueRead k m)
  | write {i : Instr} (hi : queuesWrite i = true) (body : List Byte) : ExecEffect s i (s.enqueueWrite body)
  | cancel : ExecEffect s .cancel (s.cancelWrite s.cancelIndex)
  | stage (k : RbKind) (id : Byte) : ExecEffect s (stageOf k id) (s.stage k id.toNat (s.arg 0))
  | tick : ExecEffect s .tick s.tick
  | update : ExecEffect s .update (s.updateAt s.now)
  | wire {i : Instr} (hi : mapWord i = none) (bs : List Byte) : ExecEffect s i (s.receive bs)

theorem exec_effect (i : Instr) (s : State) : ∃ t, exec i s = .next t ∧ ExecEffect s i t := by
  cases i with
  | crcInit => exact ⟨_, rfl, .crc (.inl rfl) _⟩
  | crcFeed => exact ⟨_, rfl, .crc (.inr rfl) _⟩
  | readStatus m => exact ⟨_, rfl, .read m (.inl rfl) .status⟩
  | readPosition m => exact ⟨_, rfl, .read m (.inr rfl) .position⟩
  | rioStart | rioHome | rioStop | rioFree | rioReset | rioJogFwd | rioJogBwd | rioClear | netsel | jogsteps
  | jogspeed | origin | dd | batchPos | batchVel | batchMode | batchAcc | batchDec =>
    exact ⟨_, rfl, .write rfl _⟩
  | cancel => exact ⟨_, rfl, .cancel⟩
  | stagePos id => exact ⟨_, rfl, .stage .pos id⟩
  | stageVel id => exact ⟨_, rfl, .stage .vel id⟩
  | stageMode id => exact ⟨_, rfl, .stage .mode id⟩
  | stageAcc id => exact ⟨_, rfl, .stage .acc id⟩
  | stageDec id => exact ⟨_, rfl, .stage .dec id⟩
  | stageCur id => exact ⟨_, rfl, .stage .cur id⟩
  | tick => exact ⟨_, rfl, .tick⟩
  | update => exact ⟨_, rfl, .update⟩
  | wireReadReq | wireReadResp | wireWrite1 | wireWriteDd | wireWriteBatch => exact ⟨_, rfl, .wire rfl _⟩

/-! ## What a step is -/

/-- A step with an action to come performs it. -/
theorem step_of_agenda {s : State} {e : Event} {rest : List Event} (h : s.env.agenda = e :: rest) :
    step s = (s.setAgenda rest).perform e := by
  simp [step, h]

/-- A step with no action to come keeps the state, any other performs the agenda's first action. -/
theorem step_cases (s : State) :
    (s.env.agenda = [] ∧ step s = .next s)
      ∨ (∃ e rest, s.env.agenda = e :: rest ∧ step s = (s.setAgenda rest).perform e) := by
  cases h : s.env.agenda with
  | nil => exact .inl ⟨rfl, by simp [step, h]⟩
  | cons e rest => exact .inr ⟨e, rest, rfl, step_of_agenda h⟩

/-- `t` is `s` but for host registers and surroundings: what lies behind the window is the same, and CFG_INTERVAL is
kept or legal. -/
structure State.HostSideOnly (s t : State) : Prop where
  params : t.params = s.params
  pendingWrites : t.pendingWrites = s.pendingWrites
  pendingReads : t.pendingReads = s.pendingReads
  parser : t.parser = s.parser
  ready : t.ready = s.ready
  rb : t.rb = s.rb
  results : t.results = s.results
  interval : t.cfgInterval = s.cfgInterval ∨ t.cfgInterval ≠ 0#32

/-- One action from outside changes the host side only and may then run an instruction, or it is reset. -/
theorem State.perform_sides (s : State) (e : Event) :
    (∃ i u, s.HostSideOnly u ∧ s.perform e = exec i u)
      ∨ (∃ u, s.perform e = .next u ∧ s.HostSideOnly u)
      ∨ (e = .reset ∧ s.perform e = .next s.resetBlock) := by
  rcases s.perform_cases e with ⟨w, i, -, -, hp⟩ | ⟨w, -, hp⟩ | ⟨bs, i, -, -, hp⟩ | ⟨bs, -, hp⟩ | ⟨off, k, v, -, hp⟩
    | ⟨off, v, -, hp⟩ | ⟨off, v, -, hv, hp⟩ | ⟨off, v, -, hp⟩ | ⟨off, v, f, -, hp⟩ | ⟨off, -, hp⟩ | ⟨b, -, hp⟩ | hp
  · exact .inl ⟨i, s.setCmd w, ⟨rfl, rfl, rfl, rfl, rfl, rfl, rfl, .inl rfl⟩, hp⟩
  · exact .inr (.inl ⟨_, hp, ⟨rfl, rfl, rfl, rfl, rfl, rfl, rfl, .inl rfl⟩⟩)
  · exact .inl ⟨i, s, ⟨rfl, rfl, rfl, rfl, rfl, rfl, rfl, .inl rfl⟩, hp⟩
  · exact .inr (.inl ⟨_, hp, ⟨rfl, rfl, rfl, rfl, rfl, rfl, rfl, .inl rfl⟩⟩)
  · exact .inr (.inl ⟨_, hp, ⟨rfl, rfl, rfl, rfl, rfl, rfl, rfl, .inl rfl⟩⟩)
  · exact .inr (.inl ⟨_, hp, ⟨rfl, rfl, rfl, rfl, rfl, rfl, rfl, .inl rfl⟩⟩)
  · exact .inr (.inl ⟨_, hp, ⟨rfl, rfl, rfl, rfl, rfl, rfl, rfl, .inr hv⟩⟩)
  · exact .inr (.inl ⟨_, hp, ⟨rfl, rfl, rfl, rfl, rfl, rfl, rfl, .inl rfl⟩⟩)
  · exact .inr (.inl ⟨_, hp, ⟨rfl, rfl, rfl, rfl, rfl, rfl, rfl, .inl rfl⟩⟩)
  · exact .inr (.inl ⟨_, hp, ⟨rfl, rfl, rfl, rfl, rfl, rfl, rfl, .inl rfl⟩⟩)
  · exact .inr (.inl ⟨_, hp, ⟨rfl, rfl, rfl, rfl, rfl, rfl, rfl, .inl rfl⟩⟩)
  · exact .inr (.inr hp)

/-! ## The state after reset (10_state.md R51) -/

theorem Parser.ok_reset : Parser.reset.Ok :=
  ⟨List.length_replicate, rfl, fun h => absurd rfl h⟩

theorem RegisterBuffer.sized_reset (n : Nat) : (RegisterBuffer.reset n).Sized n := by
  simp [RegisterBuffer.reset]

theorem MotorResult.resultOk_reset : ResultOk MotorResult.reset :=
  ⟨fun _ => rfl, fun _ => rfl⟩

theorem State.inv_resetWith {p : Params} (hp : p.Ok) (e : Env) : (State.resetWith p e).Inv := by
  have hresults : ∀ r ∈ List.replicate p.nMotors MotorResult.reset, ResultOk r := fun r hr => by
    rw [List.eq_of_mem_replicate hr]
    exact MotorResult.resultOk_reset
  have hinterval : (50#32 : Word) ≠ 0#32 := by decide
  exact ⟨hp, hinterval, ⟨Nat.zero_le _, List.forall_mem_nil _⟩,
    ⟨Nat.zero_le _, List.forall_mem_nil _, List.forall_mem_nil _⟩, Parser.ok_reset, rfl,
    RegisterBuffer.sized_reset _, List.length_replicate, hresults⟩

@[simp] theorem State.rbValue_resetWith (p : Params) (e : Env) (k : RbKind) (m : Nat) :
    (State.resetWith p e).rbValue k m = 0#32 := by
  have hbank : (RegisterBuffer.reset p.nMotors).bank k = List.replicate p.nMotors 0#32 := by cases k <;> rfl
  simp [State.rbValue, State.resetWith, hbank]

@[simp] theorem State.result_resetWith (p : Params) (e : Env) (m : Nat) :
    (State.resetWith p e).result m = MotorResult.reset := by
  simp [State.result, State.resetWith]

/-- Settles O55: the registers by definition, each slot of the Register Buffer and of the results by its read. -/
theorem resetValues : Obligations.ResetValues := by
  intro p e
  refine ⟨rfl, rfl, rfl, rfl, rfl, rfl, rfl, rfl, rfl, rfl, rfl, rfl, rfl, rfl, rfl, rfl, rfl, rfl, rfl, rfl, rfl, rfl,
    rfl, List.length_replicate, fun b hb => List.eq_of_mem_replicate hb, ?_, ?_⟩
  · exact State.rbValue_resetWith p e
  · exact State.result_resetWith p e

/-! ## The invariant -/

theorem State.Inv.of_hostSideOnly {s t : State} (h : s.Inv) (ht : s.HostSideOnly t) : t.Inv := by
  obtain ⟨hparams, hinterval, hrest⟩ := h
  have hinterval' : t.cfgInterval ≠ 0#32 := ht.interval.elim (fun e => e ▸ hinterval) id
  unfold State.Inv
  rw [ht.params, ht.pendingWrites, ht.pendingReads, ht.parser, ht.ready, ht.rb, ht.results]
  exact ⟨hparams, hinterval', hrest⟩

theorem State.Inv.updateAt {s : State} (h : s.Inv) (now : Word) : (s.updateAt now).Inv := by
  rcases s.updateAt_cases now with ⟨-, e⟩ | ⟨-, e⟩ <;> rw [e]
  · exact h
  · exact State.Inv.tick (s := s.setTimeRef (s.caughtUp now)) h

/-- Every instruction keeps the invariant: a frame body it queues has 1, 6 or N_MOTORS values, so 1 to 60. -/
theorem exec_keeps_inv {i : Instr} {s t : State} (h : s.Inv) (ht : exec i s = .next t) : t.Inv := by
  obtain ⟨u, hu, hop⟩ := exec_cases i s
  obtain rfl : u = t := Host.Outcome.next.inj (hu.symm.trans ht)
  rcases hop with ⟨c, -, rfl⟩ | ⟨k, m, -, rfl⟩ | ⟨st, a, vals, hlen, rfl⟩ | ⟨-, rfl⟩ | ⟨k, m, -, rfl⟩ | ⟨-, rfl⟩
    | ⟨-, rfl⟩ | ⟨bs, rfl⟩
  · exact h
  · exact h.issueRead k m
  · have hmotors : 1 ≤ s.params.nMotors ∧ s.params.nMotors ≤ 60 := h.1.1
    exact h.enqueueWrite (bodyOk_bodyWrite st a (by omega) (by omega))
  · exact h.cancelWrite _
  · exact h.stage k _ _
  · exact h.tick
  · exact h.updateAt _
  · exact h

theorem State.perform_keeps_inv {e : Event} {s t : State} (h : s.Inv) (ht : s.perform e = .next t) : t.Inv := by
  rcases s.perform_sides e with ⟨i, u, hu, hp⟩ | ⟨u, hp, hu⟩ | ⟨-, hp⟩ <;> rw [hp] at ht
  · exact exec_keeps_inv (h.of_hostSideOnly hu) ht
  · obtain rfl := Host.Outcome.next.inj ht
    exact h.of_hostSideOnly hu
  · obtain rfl := Host.Outcome.next.inj ht
    exact State.inv_resetWith h.1 s.env

/-- Settles O38: a step is nothing or one action from outside, and every action keeps the invariant. -/
theorem everyStepKeepsTheInvariant : Obligations.EveryStepKeepsTheInvariant := by
  intro s t h ht
  rcases step_cases s with ⟨-, hs⟩ | ⟨e, rest, -, hs⟩ <;> rw [hs] at ht
  · obtain rfl := Host.Outcome.next.inj ht
    exact h
  · exact State.perform_keeps_inv (s := s.setAgenda rest) h ht

/-! ## The writers of each register -/

theorem mayRaise_of_queuesWrite {i : Instr} (h : queuesWrite i = true) : mayRaise i = [2] := by
  cases i <;> cases h <;> rfl

theorem mayRaise_stageOf (k : RbKind) (id : Byte) : mayRaise (stageOf k id) = [1] := by
  cases k <;> rfl

/-- Settles O41: the registers are compared for each shared operation, one case for each thing it can do. -/
theorem registersHaveTheirWriters : Obligations.RegistersHaveTheirWriters := by
  intro i s
  obtain ⟨t, ht, heffect⟩ := exec_effect i s
  refine ⟨t, ht, ?_⟩
  cases heffect with
  | crc hi c => rcases hi with rfl | rfl <;> simp
  | read m hi k =>
    have hraise : mayRaise i = [1, 2] := by rcases hi with rfl | rfl <;> rfl
    have hread : ¬ ∀ id, i ≠ .readStatus id ∧ i ≠ .readPosition id := fun h =>
      hi.elim (h m).1 (h m).2
    rcases s.issueRead_cases k m with ⟨-, e⟩ | ⟨-, -, e⟩ | ⟨-, -, e⟩ <;>
      simp +contextual [e, hraise, hread, ErrFlag.code, -BitVec.getLsbD_eq_getElem]
  | write hi body =>
    have hraise := mayRaise_of_queuesWrite hi
    rcases s.enqueueWrite_cases body with ⟨-, e⟩ | ⟨-, e⟩ <;>
      simp +contextual [e, hraise, hi, ErrFlag.code, -BitVec.getLsbD_eq_getElem]
  | cancel =>
    rcases s.cancelWrite_cases s.cancelIndex with ⟨-, e⟩ | ⟨-, e⟩ <;>
      simp +contextual [e, mayRaise, ErrFlag.code, -BitVec.getLsbD_eq_getElem]
  | stage k id =>
    have hraise := mayRaise_stageOf k id
    have hstage : ¬ ∀ k' id', stageOf k id ≠ stageOf k' id' := fun h => h k id rfl
    rcases s.stage_cases k id.toNat (s.arg 0) with ⟨-, e⟩ | ⟨-, e⟩ | ⟨-, e⟩ <;>
      simp +contextual [e, hraise, hstage, ErrFlag.code, -BitVec.getLsbD_eq_getElem]
  | tick =>
    simp +contextual [mayRaise, State.tick_err_getLsbD, State.tick_err_mono, -BitVec.getLsbD_eq_getElem]
  | update =>
    rcases s.updateAt_cases s.now with ⟨-, e⟩ | ⟨-, e⟩
    · simp [e]
    · simp +contextual [e, mayRaise, State.tick_err_getLsbD, State.tick_err_mono, -BitVec.getLsbD_eq_getElem]
  | wire hi bs => simp [hi]

/-! ## Valid bits (10_state.md R47) -/

/-- A valid bit that is 1 in `r` is 1 in `r'`. -/
def MotorResult.KeepsValid (r r' : MotorResult) : Prop :=
  (r.svalid = true → r'.svalid = true) ∧ (r.pvalid = true → r'.pvalid = true)

theorem MotorResult.KeepsValid.refl (r : MotorResult) : r.KeepsValid r := ⟨id, id⟩

theorem MotorResult.KeepsValid.trans {a b c : MotorResult} (h : a.KeepsValid b) (h' : b.KeepsValid c) :
    a.KeepsValid c :=
  ⟨h'.1 ∘ h.1, h'.2 ∘ h.2⟩

/-- A motor's result registers are a matter of N_MOTORS and the results alone. -/
theorem State.result_congr {s t : State} (hp : t.params = s.params) (hr : t.results = s.results) (m : Nat) :
    t.result m = s.result m := by
  simp only [State.result, State.HasMotor, hp, hr]

theorem State.modifyResult_keepsValid (s : State) (n : Nat) {f : MotorResult → MotorResult}
    (hf : ∀ r : MotorResult, r.KeepsValid (f r)) (m : Nat) :
    (s.result m).KeepsValid ((s.modifyResult n f).result m) := by
  by_cases hm : m = n
  · subst hm
    unfold State.modifyResult
    split
    · next hm =>
      obtain ⟨hm1, hmN⟩ := hm
      cases h : s.results[m - 1]? <;>
        simp [State.result, State.HasMotor, hm1, hmN, h, List.getD_eq_getElem?_getD, hf, MotorResult.KeepsValid.refl]
    · exact .refl _
  · rw [s.result_modifyResult_of_ne hm]
    exact .refl _

theorem State.applyValue_keepsValid (s : State) (n : Nat) (k : RegKind) (v : Word) (m : Nat) :
    (s.result m).KeepsValid ((s.applyValue n k v).result m) := by
  cases k with
  | status =>
    refine s.modifyResult_keepsValid n (fun r => ?_) m
    exact ⟨fun _ => rfl, id⟩
  | position =>
    refine s.modifyResult_keepsValid n (fun r => ?_) m
    exact ⟨id, fun _ => rfl⟩

theorem State.correlate_keepsValid (s : State) (r : Response) (m : Nat) :
    (s.result m).KeepsValid ((s.correlate r).result m) := by
  rcases s.correlate_cases r with ⟨-, e⟩ | ⟨h, rest, -, -, e⟩ | ⟨h, rest, v, -, -, e⟩ <;> rw [e]
  · exact .refl _
  · exact .refl _
  · exact (s.setReads rest).applyValue_keepsValid _ h.kind v m

theorem State.drainReady_keepsValid (rs : List Response) (s : State) (m : Nat) :
    (s.result m).KeepsValid ((s.drainReady rs).result m) := by
  induction rs generalizing s with
  | nil => exact .refl _
  | cons r rs ih => exact ((s.setReady rs).correlate_keepsValid r m).trans (ih _)

theorem State.tick_keepsValid (s : State) (m : Nat) : (s.result m).KeepsValid (s.tick.result m) := by
  by_cases ho : s.env.isOpen = true
  · rw [State.tick_eq_drainReady ho]
    have hfed : ((s.countTick.lineStep.clearRx).feed s.env.rx).result m = s.result m :=
      State.result_congr (by simp) (by simp) m
    exact hfed ▸ State.drainReady_keepsValid _ _ m
  · rw [State.tick_closed (by simpa using ho)]
    exact .refl _

theorem exec_keepsValid {i : Instr} {s t : State} (ht : exec i s = .next t) (m : Nat) :
    (s.result m).KeepsValid (t.result m) := by
  obtain ⟨u, hu, heffect⟩ := exec_effect i s
  obtain rfl : u = t := Host.Outcome.next.inj (hu.symm.trans ht)
  cases heffect with
  | crc _ c => exact .refl _
  | read n _ k => rw [s.issueRead_frame]; exact .refl _
  | write _ body => rw [s.enqueueWrite_frame]; exact .refl _
  | cancel => rw [s.cancelWrite_frame]; exact .refl _
  | stage k id => rw [s.stage_frame]; exact .refl _
  | tick => exact s.tick_keepsValid m
  | update =>
    rcases s.updateAt_cases s.now with ⟨-, e⟩ | ⟨-, e⟩ <;> rw [e]
    · exact .refl _
    · exact (s.setTimeRef (s.caughtUp s.now)).tick_keepsValid m
  | wire _ bs => exact .refl _

theorem State.perform_keepsValid {e : Event} {s t : State} (he : e ≠ .reset) (ht : s.perform e = .next t) (m : Nat) :
    (s.result m).KeepsValid (t.result m) := by
  rcases s.perform_sides e with ⟨i, u, hu, hp⟩ | ⟨u, hp, hu⟩ | ⟨hreset, -⟩
  · rw [← State.result_congr hu.params hu.results m]
    exact exec_keepsValid (hp ▸ ht) m
  · obtain rfl : u = t := Host.Outcome.next.inj (hp.symm.trans ht)
    rw [State.result_congr hu.params hu.results m]
    exact .refl _
  · exact absurd hreset he

/-- Settles O42: only a tick writes the result registers, and what it applies sets valid bits. -/
theorem validBitsStayUntilReset : Obligations.ValidBitsStayUntilReset := by
  intro s t m ht hreset
  rcases step_cases s with ⟨-, hs⟩ | ⟨e, rest, hagenda, hs⟩ <;> rw [hs] at ht
  · obtain rfl := Host.Outcome.next.inj ht
    exact MotorResult.KeepsValid.refl _
  · have he : e ≠ .reset := fun h => hreset (by simp [hagenda, h])
    exact State.perform_keepsValid (s := s.setAgenda rest) he ht m

/-! ## The host window: reads -/

theorem State.hostRead_of_ofOffset {off : BitVec 12} {r : WindowReg} (h : WindowReg.ofOffset off = r) (s : State) :
    s.hostRead off = s.view r := by
  rw [State.hostRead, h]

/-- What the host reads does not depend on the actions to come. -/
@[simp] theorem State.hostRead_setAgenda (s : State) (a : List Event) (off : BitVec 12) :
    (s.setAgenda a).hostRead off = s.hostRead off := by
  unfold State.hostRead
  cases WindowReg.ofOffset off <;> rfl

theorem State.view_pos (s : State) (m : Nat) :
    s.view (.pos m) = if s.HasMotor m then (s.results.getD (m - 1) MotorResult.reset).pos else 0#32 :=
  apply_ite MotorResult.pos ..

theorem State.view_stat (s : State) (m : Nat) :
    s.view (.stat m) = if s.HasMotor m then (s.results.getD (m - 1) MotorResult.reset).stat else 0#32 :=
  apply_ite MotorResult.stat ..

theorem kindIndex_lt (k : RbKind) : kindIndex k < 6 := by
  cases k <;> decide

@[simp] theorem RbKind.ofIndex_kindIndex (k : RbKind) : RbKind.ofIndex (kindIndex k) = k := by
  cases k <;> rfl

/-- Settles O45: each offset names its register, and a motor outside 1..N_MOTORS has none. -/
theorem windowReadsMotorRegisters : Obligations.WindowReadsMotorRegisters := by
  intro s
  refine ⟨fun m hm => ⟨?_, ?_, ?_, fun k => ?_⟩, fun off hoff => ?_⟩
  · rw [State.hostRead_of_ofOffset (WindowReg.ofOffset_pos hm), State.view_pos]
  · rw [State.hostRead_of_ofOffset (WindowReg.ofOffset_stat hm), State.view_stat]
  · exact State.hostRead_of_ofOffset (WindowReg.ofOffset_flags hm) s
  · have hrb := WindowReg.ofOffset_rb (kindIndex_lt k) hm
    rw [RbKind.ofIndex_kindIndex] at hrb
    exact State.hostRead_of_ofOffset hrb s
  · exact State.hostRead_of_ofOffset (WindowReg.ofOffset_reserved hoff) s

theorem WindowReg.map_ofOffset_range :
    (List.range 22).map (fun o => WindowReg.ofOffset (BitVec.ofNat 12 o)) = lowRegs := by decide

theorem State.headTimeoutView_eq (s : State) :
    s.headTimeoutView = ((s.pendingReads.head?).map PendingRequest.timeoutTicks).getD 0#32 := by
  unfold State.headTimeoutView
  split <;> simp [*]

theorem State.headTicksView_eq (s : State) :
    s.headTicksView = ((s.pendingReads.head?).map PendingRequest.ticksWaited).getD 0#32 := by
  unfold State.headTicksView
  split <;> simp [*]

/-- Settles O46: the first 22 offsets are `lowRegs` in order. -/
theorem windowReadsLowRegisters : Obligations.WindowReadsLowRegisters := by
  intro s
  have hlow : (List.range 22).map (fun o => s.hostRead (BitVec.ofNat 12 o)) = lowRegs.map s.view := by
    rw [← WindowReg.map_ofOffset_range, List.map_map]
    rfl
  rw [hlow, ← State.headTimeoutView_eq, ← State.headTicksView_eq]
  rfl

/-- Settles O50. -/
theorem hostReadHasNoSideEffect : Obligations.HostReadHasNoSideEffect := by
  intro s off rest h
  rw [step_of_agenda h, State.perform, State.hostRead_setAgenda]
  rfl

/-! ## The computed views STATUS and HEAD -/

/-- A field of a word is known by its bits. -/
theorem extractLsb'_eq_of_getLsbD {n k : Nat} {v : Word} {f : BitVec n}
    (h : ∀ i < n, v.getLsbD (k + i) = f.getLsbD i) : v.extractLsb' k n = f := by
  apply BitVec.eq_of_getLsbD_eq
  intro i hi
  rw [BitVec.getLsbD_extractLsb', h i hi]
  simp [hi]

/-- The three bits that STATUS has for the parser state (10_state.md R32). -/
def ParserState.bits : ParserState → BitVec 3
  | .address => 0#3
  | .function => 1#3
  | .size => 2#3
  | .data => 3#3
  | .crc => 4#3

theorem ParserState.ofNat_code (p : ParserState) : BitVec.ofNat 32 p.code = p.bits.setWidth 32 := by
  cases p <;> rfl

/-- STATUS bit by bit: each field from its lowest bit on. -/
theorem State.getLsbD_statusView (s : State) {i : Nat} (hi : i < 32) :
    s.statusView.getLsbD i =
      ((decide (i = 0) && s.env.isOpen) || (decide (i = 1) && s.pendingWork)
        || (!decide (i < 4) && s.parser.state.bits.getLsbD (i - 4))
        || (!decide (i < 8) && (BitVec.ofNat 8 s.pendingWrites.length).getLsbD (i - 8))
        || (!decide (i < 16) && (BitVec.ofNat 8 s.pendingReads.length).getLsbD (i - 16))
        || (!decide (i < 24) && s.parser.idx.getLsbD (i - 24))) := by
  have hsub (n : Nat) : i - n < 32 := by omega
  simp [State.statusView, getLsbD_bitAt, ParserState.ofNat_code, hi, hsub, -BitVec.getLsbD_eq_getElem]

theorem State.statusView_reserved (s : State) : s.statusView.extractLsb' 2 2 = 0#2 := by
  refine extractLsb'_eq_of_getLsbD fun i hi => ?_
  rw [s.getLsbD_statusView (by omega)]
  interval_cases i <;> simp

theorem State.statusView_parserState (s : State) : s.statusView.extractLsb' 4 3 = s.parser.state.bits := by
  refine extractLsb'_eq_of_getLsbD fun i hi => ?_
  rw [s.getLsbD_statusView (by omega)]
  interval_cases i <;> simp

theorem State.statusView_writeCount (s : State) :
    s.statusView.extractLsb' 8 8 = BitVec.ofNat 8 s.pendingWrites.length := by
  refine extractLsb'_eq_of_getLsbD fun i hi => ?_
  rw [s.getLsbD_statusView (by omega)]
  interval_cases i <;> simp

theorem State.statusView_readCount (s : State) :
    s.statusView.extractLsb' 16 8 = BitVec.ofNat 8 s.pendingReads.length := by
  refine extractLsb'_eq_of_getLsbD fun i hi => ?_
  rw [s.getLsbD_statusView (by omega)]
  interval_cases i <;> simp

theorem State.statusView_parserIdx (s : State) : s.statusView.extractLsb' 24 8 = s.parser.idx := by
  refine extractLsb'_eq_of_getLsbD fun i hi => ?_
  rw [s.getLsbD_statusView (by omega)]
  interval_cases i <;> simp

theorem State.statusView_resetWith (p : Params) (e : Env) :
    (State.resetWith p e).statusView = if e.isOpen then 1#32 else 0#32 := by
  have hfields : (State.resetWith p e).statusView =
      bitAt e.isOpen 0 ||| bitAt false 1 ||| 0#32 <<< 4 ||| 0#32 <<< 8 ||| 0#32 <<< 16 ||| 0#32 <<< 24 := rfl
  rw [hfields]
  cases e.isOpen <;> rfl

/-- Settles O51: every field from the bits of STATUS; a count of at most 255 is its own 8-bit field. -/
theorem statusFields : Obligations.StatusFields := by
  refine ⟨fun s hwrites hreads => ?_, State.statusView_resetWith⟩
  have hview : s.hostRead 0x00C#12 = s.statusView := rfl
  simp only [hview]
  refine ⟨?_, ?_, s.statusView_reserved, ?_, ?_, ?_, ?_, s.statusView_parserIdx⟩
  · simp [s.getLsbD_statusView, -BitVec.getLsbD_eq_getElem]
  · simp [s.getLsbD_statusView, State.pendingWork, -BitVec.getLsbD_eq_getElem]
  · rw [s.statusView_parserState]
    cases s.parser.state <;> rfl
  · simp [s.getLsbD_statusView, -BitVec.getLsbD_eq_getElem]
  · rw [s.statusView_writeCount, BitVec.toNat_ofNat, Nat.mod_eq_of_lt (by omega)]
  · rw [s.statusView_readCount, BitVec.toNat_ofNat, Nat.mod_eq_of_lt (by omega)]

/-- HEAD bit by bit, with a read queued. -/
theorem State.getLsbD_headView {s : State} {h : PendingRequest} {rest : List PendingRequest}
    (hq : s.pendingReads = h :: rest) {i : Nat} (hi : i < 32) :
    s.headView.getLsbD i = (h.motorId.getLsbD i || (decide (i = 8) && (h.kind == .position))
      || (decide (i = 9) && (h.state == .awaitingResponse)) || decide (i = 31)) := by
  simp [State.headView, hq, getLsbD_bitAt, hi, -BitVec.getLsbD_eq_getElem]

/-- Settles O52: every field from the bits of HEAD. -/
theorem headFields : Obligations.HeadFields := by
  intro s
  have hview : s.hostRead 0x00D#12 = s.headView := rfl
  simp only [hview]
  refine ⟨fun hq => by simp [State.headView, hq], fun h rest hq => ⟨?_, ?_, ?_, ?_, ?_⟩⟩
  · refine extractLsb'_eq_of_getLsbD fun i hi => ?_
    rw [State.getLsbD_headView hq (by omega)]
    interval_cases i <;> simp
  · simp [State.getLsbD_headView hq, -BitVec.getLsbD_eq_getElem]
  · simp [State.getLsbD_headView hq, -BitVec.getLsbD_eq_getElem]
  · refine extractLsb'_eq_of_getLsbD fun i hi => ?_
    rw [State.getLsbD_headView hq (by omega)]
    interval_cases i <;> simp
  · simp [State.getLsbD_headView hq, -BitVec.getLsbD_eq_getElem]

/-! ## The host window: writes -/

theorem State.clearErr_err_getLsbD (s : State) (v : Word) {b : Nat} (hb : b < 10) :
    (s.clearErr v).err.getLsbD b = (s.err.getLsbD b && !v.getLsbD b) := by
  rw [State.clearErr_err, BitVec.getLsbD_and, BitVec.getLsbD_not, BitVec.getLsbD_extractLsb']
  simp [hb, -BitVec.getLsbD_eq_getElem]

theorem State.writeInterval_of_ne_zero {v : Word} (h : v ≠ 0#32) (s : State) :
    s.writeInterval v = s.setInterval v :=
  if_neg h

theorem State.hostWrite_arg {off : BitVec 12} {k : Fin 6} (h : WindowReg.ofOffset off = .arg k) (s : State)
    (v : Word) : s.hostWrite off v = .next (s.setArg k v) := by
  rw [State.hostWrite, h]

/-- Settles O48: W1C of ERR bit by bit, the two writes of CFG_INTERVAL and the write of CFG_TIMEOUT. -/
theorem windowWritesErrAndConfig : Obligations.WindowWritesErrAndConfig := by
  intro s v
  refine ⟨⟨_, rfl, fun b hb => State.clearErr_err_getLsbD s v hb⟩, fun hv => ?_, ?_, rfl⟩
  · exact congrArg Host.Outcome.next (State.writeInterval_of_ne_zero hv s)
  · exact congrArg Host.Outcome.next (State.raise_eq_flagged s .badCfg)

/-- Settles O49: the six offsets are the six ARG registers. -/
theorem windowWritesArgs : Obligations.WindowWritesArgs := by
  intro s v
  exact ⟨State.hostWrite_arg (k := 0) rfl s v, State.hostWrite_arg (k := 1) rfl s v,
    State.hostWrite_arg (k := 2) rfl s v, State.hostWrite_arg (k := 3) rfl s v,
    State.hostWrite_arg (k := 4) rfl s v, State.hostWrite_arg (k := 5) rfl s v⟩

/-! ## The transport -/

/-- Settles O58. -/
theorem transportOpensFromOutside : Obligations.TransportOpensFromOutside := by
  intro s b rest h
  rw [step_of_agenda h]
  rfl

end Sys2Proof.Machine

end

/-! # Memory: the line in and the write queue: O2, O44 -/

section

namespace Sys2Proof.Machine

open Sys2Proof Sys2Proof.Claims

/-! ## Bytes on the line (20_memory.md R78) -/

theorem State.arrive_of_ok {bs : List Byte} {i : Instr} (h : decode (.frame bs) = .ok i) (s : State) :
    s.arrive bs = exec i s := by
  simp only [State.arrive, h]

theorem State.arrive_of_error {bs : List Byte} {e : DecodeError} (h : decode (.frame bs) = .error e) (s : State) :
    s.arrive bs = .next (s.receive bs) := by
  simp only [State.arrive, h]

/-- Settles O2: the step is the arrival of the bytes, by what they decode to. -/
theorem stepRunsTheDecodedFrame : Obligations.StepRunsTheDecodedFrame := by
  intro s bs rest hagenda
  rw [step_of_agenda hagenda, State.perform]
  refine ⟨fun i hi => State.arrive_of_ok hi _, fun hnone => ?_⟩
  cases hd : decode (.frame bs) with
  | ok i => exact absurd hd (hnone i)
  | error e => exact State.arrive_of_error hd _

/-! ## The trailer, by numbers (30_encoding.md R105) -/

theorem lo8_eq_byteOf (x : Half) : lo8 x = byteOf x.toNat 0 := by
  apply BitVec.eq_of_toNat_eq
  simp [lo8, byteOf, BitVec.extractLsb'_toNat]

theorem hi8_eq_byteOf (x : Half) : hi8 x = byteOf x.toNat 1 := by
  apply BitVec.eq_of_toNat_eq
  simp [hi8, byteOf, BitVec.extractLsb'_toNat, Nat.shiftRight_eq_div_pow]

theorem withTrailer_eq_frameOf (body : List Byte) : withTrailer body = frameOf body := by
  rw [withTrailer, trailer, lo8_eq_byteOf, hi8_eq_byteOf, frameOf]

/-! ## The write queue (20_memory.md R81) -/

/-- `t` has the write queue of `s`, or has transmitted its head (43_scheduler.md R254). -/
def State.KeepsOrSendsHead (s t : State) : Prop :=
  t.pendingWrites = s.pendingWrites
    ∨ ∃ b, s.pendingWrites = b :: t.pendingWrites ∧ t.env.tx = s.env.tx ++ [frameOf b]

theorem State.lineStep_keepsOrSendsHead (s : State) : s.KeepsOrSendsHead s.lineStep := by
  rcases s.lineStep_cases with ⟨h, rest, -, -, e⟩ | ⟨h, rest, -, -, e⟩ | ⟨body, rest, -, hq, e⟩ | ⟨-, -, e⟩ <;> rw [e]
  · exact .inl rfl
  · rcases s.awaitRead_cases h rest with ⟨-, e'⟩ | ⟨-, e'⟩ <;> rw [e'] <;> exact .inl rfl
  · exact .inr ⟨body, hq, by rw [← withTrailer_eq_frameOf]; rfl⟩
  · exact .inl rfl

/-- Of a tick, only the line step touches the write queue and the transmit stream. -/
theorem State.tick_keepsOrSendsHead (s : State) : s.KeepsOrSendsHead s.tick := by
  by_cases h : s.env.isOpen = true
  · have hline := s.countTick.lineStep_keepsOrSendsHead
    rw [State.tick_open h]
    simpa [State.KeepsOrSendsHead] using hline
  · rw [State.tick_closed (by simpa using h)]
    exact .inl rfl

theorem State.updateAt_keepsOrSendsHead (s : State) (now : Word) : s.KeepsOrSendsHead (s.updateAt now) := by
  rcases s.updateAt_cases now with ⟨-, e⟩ | ⟨-, e⟩ <;> rw [e]
  · exact .inl rfl
  · exact (s.setTimeRef (s.caughtUp now)).tick_keepsOrSendsHead

theorem State.enqueueWrite_keepsOrAppends (s : State) (body : List Byte) :
    (s.enqueueWrite body).pendingWrites = s.pendingWrites
      ∨ (s.enqueueWrite body).pendingWrites = s.pendingWrites ++ [body] := by
  rcases s.enqueueWrite_cases body with ⟨-, e⟩ | ⟨-, e⟩ <;> rw [e]
  · exact .inl rfl
  · exact .inr rfl

theorem State.cancelWrite_keepsOrRemoves (s : State) (i : Nat) :
    (s.cancelWrite i).pendingWrites = s.pendingWrites
      ∨ (s.cancelWrite i).pendingWrites = s.pendingWrites.take i ++ s.pendingWrites.drop (i + 1) := by
  rcases s.cancelWrite_cases i with ⟨-, e⟩ | ⟨-, e⟩ <;> rw [e]
  · exact .inl rfl
  · exact .inr (List.eraseIdx_eq_take_drop_succ _ _)

/-- Settles O44: each shared operation leaves the write queue alone, or is one of those above. -/
theorem writeQueueIsFifo : Obligations.WriteQueueIsFifo := by
  intro i s
  obtain ⟨t, ht, heffect⟩ := exec_effect i s
  refine ⟨t, ht, ?_⟩
  cases heffect with
  | crc _ c => exact .inl rfl
  | read m _ k => rw [s.issueRead_frame]; exact .inl rfl
  | write _ body => exact (s.enqueueWrite_keepsOrAppends body).imp_right fun h => .inl ⟨body, h⟩
  | cancel => exact (s.cancelWrite_keepsOrRemoves s.cancelIndex).imp_right fun h => .inr (.inr ⟨rfl, h⟩)
  | stage k id => rw [s.stage_frame]; exact .inl rfl
  | tick => exact s.tick_keepsOrSendsHead.imp_right fun h => .inr (.inl h)
  | update => exact (s.updateAt_keepsOrSendsHead s.now).imp_right fun h => .inr (.inl h)
  | wire _ bs => exact .inl rfl

end Sys2Proof.Machine

end

/-! # Encoding: command words and wire frames: O1, O3 to O8, O57 -/

section

namespace Sys2Proof.Machine

open Sys2Proof Sys2Proof.Claims

/-! ## Command words: the decoder and the encoder are inverse (30_encoding.md R90 to R97) -/

/-- A word built from a legal OP, SEL and ID decodes to the instruction these name. -/
theorem decodeCommand_of_instr {o : Opcode} {sel id : Byte} {i : Instr} (h : o.instr sel id = some i)
    (hid : o.idFixed = true → id = 0#8) : decodeCommand (commandWord o sel id) = .ok i := by
  have hlegal : ¬ (o.idFixed && id != 0#8) = true := by simpa using hid
  rw [decodeCommand_commandWord, h]
  exact if_neg hlegal

/-- The word that the encoder writes for a command is built from a legal OP, SEL and ID that name the command. -/
theorem instr_of_encode_eq_command {i : Instr} {w : Word} (h : encode i = .command w) :
    ∃ (o : Opcode) (sel id : Byte), w = commandWord o sel id ∧ o.instr sel id = some i
      ∧ (o.idFixed = true → id = 0#8) := by
  cases i with
  | readStatus | readPosition | rioStart | rioHome | rioStop | rioFree | rioReset | rioJogFwd | rioJogBwd | rioClear
  | netsel | jogsteps | jogspeed | origin | dd | stagePos | stageVel | stageMode | stageAcc | stageDec | stageCur =>
    exact ⟨_, _, _, (Code.command.inj h).symm, rfl, Bool.noConfusion⟩
  | crcInit | crcFeed | batchPos | batchVel | batchMode | batchAcc | batchDec | cancel | tick | update =>
    exact ⟨_, _, _, (Code.command.inj h).symm, rfl, fun _ => rfl⟩
  | wireReadReq | wireReadResp | wireWrite1 | wireWriteDd | wireWriteBatch => exact Code.noConfusion h

theorem decode_command_iff_encode {w : Word} {i : Instr} : decode (.command w) = .ok i ↔ encode i = .command w := by
  constructor
  · intro h
    obtain ⟨o, sel, id, rfl, hinstr, hid⟩ := decodeCommand_eq_ok h
    exact encode_of_instr hinstr hid
  · intro h
    obtain ⟨o, sel, id, rfl, hinstr, hid⟩ := instr_of_encode_eq_command h
    exact decodeCommand_of_instr hinstr hid

/-- The size check is of batch frames only. -/
theorem shapeOk_of_encode_eq_command {i : Instr} {w : Word} (h : encode i = .command w) : i.shapeOk = true := by
  cases i with
  | wireWriteBatch => exact Code.noConfusion h
  | _ => rfl

/-! ## Wire frames: the decoder on what the encoder writes (30_encoding.md R101 to R103) -/

theorem decodeFrame_read (st : Byte) (addr crc : Half) :
    decodeFrame (bodyRead st addr ++ trailer crc) = .ok (.wireReadReq st addr crc) := by
  have hcount : half16 (hi8 2#16) (lo8 2#16) = 2#16 := half16_hi8_lo8 _
  simp [decodeFrame, bodyRead, be16, trailer, decodeReadReq, hcount]

theorem decodeFrame_response (st fn : Byte) (v : Word) (crc : Half) :
    decodeFrame (bodyResponse st fn v ++ trailer crc) = .ok (.wireReadResp st fn v crc) := by
  simp [decodeFrame, bodyResponse, be32, trailer, decodeReadResp]

/-- A write frame is longer than the two read frames. -/
theorem decodeFrame_write (st : Byte) (addr : Half) {vals : List Word} (crc : Half) (h : 1 ≤ vals.length) :
    decodeFrame (bodyWrite st addr vals ++ trailer crc) = decodeWriteReq (bodyWrite st addr vals ++ trailer crc) := by
  have hlen : (bodyWrite st addr vals ++ trailer crc).length = 9 + 4 * vals.length := by simp; omega
  rw [decodeFrame, hlen, if_neg (by omega), if_neg (by omega)]

theorem decodeFrame_batch {addr : Half} {vals : List Word} {crc : Half}
    (h : (Instr.wireWriteBatch addr vals crc).shapeOk = true) :
    decodeFrame (bodyWrite 0#8 addr vals ++ trailer crc) = .ok (.wireWriteBatch addr vals crc) := by
  obtain ⟨hmin, hmax, hne1, hne6⟩ := of_decide_eq_true h
  rw [decodeFrame_write 0#8 addr crc hmin, decodeWriteReq_bodyWrite 0#8 addr vals crc hmin hmax]
  split
  · exact absurd rfl hne1
  · exact absurd rfl hne6
  · rfl

/-- Settles O5: a command by its OP, SEL and ID, a frame by its shape. -/
theorem decodeOfEncodeIsIdentity : Obligations.DecodeOfEncodeIsIdentity := by
  intro i hshape
  cases i with
  | wireReadReq st addr crc => exact decodeFrame_read st addr crc
  | wireReadResp st fn v crc => exact decodeFrame_response st fn v crc
  | wireWrite1 st addr v crc =>
    exact (decodeFrame_write st addr crc (by simp)).trans (decodeWriteReq_bodyWrite st addr [v] crc (by simp) (by simp))
  | wireWriteDd st addr p v a d c t crc =>
    exact (decodeFrame_write st addr crc (by simp)).trans
      (decodeWriteReq_bodyWrite st addr [p, v, a, d, c, t] crc (by simp) (by simp))
  | wireWriteBatch addr vals crc => exact decodeFrame_batch hshape
  | _ => exact decode_command_iff_encode.mpr rfl

/-! ## Wire frames: the encoder on what the decoder reads -/

theorem decodeReadReq_eq_ok {bs : List Byte} {i : Instr} (h : decodeReadReq bs = .ok i) :
    ∃ st addr crc, i = .wireReadReq st addr crc ∧ bs = bodyRead st addr ++ trailer crc := by
  unfold decodeReadReq at h
  split at h
  · next st f aHi aLo nHi nLo cLo cHi =>
    split_ifs at h with hf hn
    have hcount : [nHi, nLo] = be16 2#16 := by rw [← not_not.mp hn, be16_half16]
    refine ⟨st, half16 aHi aLo, trailerCrc cLo cHi, (Except.ok.inj h).symm, ?_⟩
    rw [bodyRead, ← hcount, be16_half16, trailer_trailerCrc, not_not.mp hf]
    rfl
  · cases h

theorem decodeReadResp_eq_ok {bs : List Byte} {i : Instr} (h : decodeReadResp bs = .ok i) :
    ∃ st fn v crc, i = .wireReadResp st fn v crc ∧ bs = bodyResponse st fn v ++ trailer crc := by
  unfold decodeReadResp at h
  split at h
  · next st f n b0 b1 b2 b3 cLo cHi =>
    split_ifs at h with hn
    refine ⟨st, f, word32 b0 b1 b2 b3, trailerCrc cLo cHi, (Except.ok.inj h).symm, ?_⟩
    rw [bodyResponse, be32_word32, trailer_trailerCrc, not_not.mp hn]
    rfl
  · cases h

/-- A frame read as a write is a write frame of 1 to 60 values. -/
theorem bodyWrite_of_decodeWriteReq {bs : List Byte} {i : Instr} (h : decodeWriteReq bs = .ok i) :
    ∃ st addr vals crc, bs = bodyWrite st addr vals ++ trailer crc ∧ 1 ≤ vals.length ∧ vals.length ≤ 60 := by
  unfold decodeWriteReq at h
  split at h
  · next st f aHi aLo nHi nLo n rest =>
    split at h
    · cases h
    next hf =>
    split at h
    · cases h
    next vals crc hsplit =>
    split at h
    · cases h
    next hlen =>
    split at h
    · cases h
    next hcount =>
    obtain ⟨hregs, hbytes⟩ := not_or.mp hcount
    have hregs' : [nHi, nLo] = be16 (BitVec.ofNat 16 (2 * vals.length)) := by
      rw [← not_not.mp hregs, be16_half16]
    refine ⟨st, half16 aHi aLo, vals, crc, ?_, by omega, by omega⟩
    rw [payload_of_splitPayload hsplit, bodyWrite, ← hregs', be16_half16, not_not.mp hf, not_not.mp hbytes]
    simp
  · cases h

theorem encode_of_decodeWriteReq {bs : List Byte} {i : Instr} (h : decodeWriteReq bs = .ok i) :
    encode i = .frame bs ∧ i.shapeOk = true := by
  obtain ⟨st, addr, vals, crc, rfl, hmin, hmax⟩ := bodyWrite_of_decodeWriteReq h
  rw [decodeWriteReq_bodyWrite st addr vals crc hmin hmax] at h
  split at h
  · obtain rfl := Except.ok.inj h
    exact ⟨rfl, rfl⟩
  · obtain rfl := Except.ok.inj h
    exact ⟨rfl, rfl⟩
  · next hne1 hne6 =>
    split_ifs at h with hst
    obtain rfl := Except.ok.inj h
    refine ⟨by rw [encode, not_not.mp hst], decide_eq_true ⟨hmin, hmax, fun hlen => ?_, fun hlen => ?_⟩⟩
    · obtain ⟨v, rfl⟩ := List.length_eq_one_iff.mp hlen
      exact hne1 v rfl
    · match vals, hlen, hne6 with
      | [p, v, a, d, c, t], _, hne6 => exact hne6 p v a d c t rfl

theorem encode_of_decodeFrame {bs : List Byte} {i : Instr} (h : decodeFrame bs = .ok i) :
    encode i = .frame bs ∧ i.shapeOk = true := by
  unfold decodeFrame at h
  split_ifs at h with hreq hresp
  · obtain ⟨st, addr, crc, rfl, rfl⟩ := decodeReadReq_eq_ok h
    exact ⟨rfl, rfl⟩
  · obtain ⟨st, fn, v, crc, rfl, rfl⟩ := decodeReadResp_eq_ok h
    exact ⟨rfl, rfl⟩
  · exact encode_of_decodeWriteReq h

/-- Settles O6: a command word by the inverse of its fields, a frame by the shape its length picks. -/
theorem encodeOfDecodeIsIdentity : Obligations.EncodeOfDecodeIsIdentity := by
  intro c i h
  cases c with
  | command w =>
    have henc := decode_command_iff_encode.mp h
    exact ⟨henc, shapeOk_of_encode_eq_command henc⟩
  | frame bs => exact encode_of_decodeFrame h

/-! ## Command words by numbers: the opcode map (30_encoding.md R92, R93) -/

theorem toNat_opField (w : Word) : (opField w).toNat = w.toNat / 2 ^ 24 := by
  simp [opField, BitVec.extractLsb'_toNat, Nat.shiftRight_eq_div_pow]
  omega

theorem toNat_selField (w : Word) : (selField w).toNat = w.toNat / 2 ^ 16 % 256 := by
  simp [selField, BitVec.extractLsb'_toNat, Nat.shiftRight_eq_div_pow]

theorem toNat_idField (w : Word) : (idField w).toNat = w.toNat / 2 ^ 8 % 256 := by
  simp [idField, BitVec.extractLsb'_toNat, Nat.shiftRight_eq_div_pow]

theorem toNat_rsvField (w : Word) : (rsvField w).toNat = w.toNat % 256 := by
  simp [rsvField, BitVec.extractLsb'_toNat]

/-- A word is the number its four fields make. -/
theorem toNat_eq_fields (w : Word) : w.toNat = (opField w).toNat * 2 ^ 24 + (selField w).toNat * 2 ^ 16
    + (idField w).toNat * 2 ^ 8 + (rsvField w).toNat := by
  rw [toNat_opField, toNat_selField, toNat_idField, toNat_rsvField]
  omega

theorem commandWord_eq_wordWithId (o : Opcode) (sel id : Byte) :
    commandWord o sel id = wordWithId (o.code.toNat * 2 ^ 24 + sel.toNat * 2 ^ 16) id := by
  have hword := toNat_eq_fields (commandWord o sel id)
  rw [opField_commandWord, selField_commandWord, idField_commandWord, rsvField_commandWord, BitVec.toNat_zero] at hword
  apply BitVec.eq_of_toNat_eq
  rw [wordWithId, BitVec.toNat_ofNat, hword, Nat.mod_eq_of_lt] <;> omega

/-- The word of a code that is a command. -/
def wordOf : Code → Option Word
  | .command w => some w
  | .frame _ => none

theorem wordOf_eq_some_iff {c : Code} {w : Word} : wordOf c = some w ↔ c = .command w := by
  cases c <;> simp [wordOf]

/-- The opcode map is the encoder on commands. -/
theorem mapWord_eq_wordOf_encode (i : Instr) : mapWord i = wordOf (encode i) := by
  cases i with
  | readStatus | readPosition | rioStart | rioHome | rioStop | rioFree | rioReset | rioJogFwd | rioJogBwd | rioClear
  | netsel | jogsteps | jogspeed | origin | dd | stagePos | stageVel | stageMode | stageAcc | stageDec | stageCur =>
    rw [encode, commandWord_eq_wordWithId]
    rfl
  | _ => rfl

/-- Settles O3: both sides say that `w` is the encoder's word of `i`. -/
theorem commandWordsAreTheOpcodeMap : Obligations.CommandWordsAreTheOpcodeMap := by
  intro w i
  rw [decode_command_iff_encode, mapWord_eq_wordOf_encode, wordOf_eq_some_iff]

/-! ## Legal and illegal words (30_encoding.md R96) -/

theorem exists_instr_iff_sel_lt (o : Opcode) (sel id : Byte) :
    (∃ i, o.instr sel id = some i) ↔ sel.toNat < o.forms.length := by
  unfold Opcode.instr
  split
  · next form h => simpa using (List.getElem?_eq_some_iff.mp h).1
  · next h => simpa using h

/-- A word decodes exactly when OP is in the map, SEL is one of its selectors, ID is 0 where it must be and RSV is
0. -/
theorem decode_command_ok_iff (w : Word) : (∃ i, decode (.command w) = .ok i) ↔ rsvField w = 0#8 ∧
    ∃ o : Opcode, opField w = o.code ∧ (selField w).toNat < o.forms.length ∧ (o.idFixed = true → idField w = 0#8) := by
  constructor
  · rintro ⟨i, h⟩
    obtain ⟨o, sel, id, rfl, hinstr, hid⟩ := decodeCommand_eq_ok h
    exact ⟨rsvField_commandWord o sel id, o, opField_commandWord o sel id,
      (exists_instr_iff_sel_lt o _ id).mp ⟨i, by rwa [selField_commandWord]⟩, by rwa [idField_commandWord]⟩
  · rintro ⟨hrsv, o, hop, hsel, hid⟩
    obtain ⟨i, hinstr⟩ := (exists_instr_iff_sel_lt o _ (idField w)).mpr hsel
    exact ⟨i, commandWord_fields hop hrsv ▸ decodeCommand_of_instr hinstr hid⟩

/-- The legal field values as 30_encoding.md R92 lists them, row by row. -/
def LegalFields (op sel id rsv : Nat) : Prop :=
  rsv = 0 ∧
    ((op ∈ [0x01, 0x02, 0x27, 0x40, 0x41] ∧ sel = 0 ∧ id = 0) ∨ (op = 0x10 ∧ sel ≤ 1)
      ∨ (op = 0x20 ∧ sel ≤ 7) ∨ (op ∈ [0x21, 0x22, 0x23, 0x24, 0x25] ∧ sel = 0)
      ∨ (op = 0x26 ∧ sel ≤ 4 ∧ id = 0) ∨ (op = 0x30 ∧ sel ≤ 5))

theorem legalFields_iff (op sel id rsv : Nat) : LegalFields op sel id rsv ↔
    rsv = 0 ∧ ∃ o : Opcode, op = o.code.toNat ∧ sel < o.forms.length ∧ (o.idFixed = true → id = 0) := by
  refine and_congr_right fun _ => ⟨?_, ?_⟩
  · rintro (⟨hop, rfl, rfl⟩ | ⟨rfl, hsel⟩ | ⟨rfl, hsel⟩ | ⟨hop, rfl⟩ | ⟨rfl, hsel, rfl⟩ | ⟨rfl, hsel⟩)
    · obtain rfl | rfl | rfl | rfl | rfl : op = 0x01 ∨ op = 0x02 ∨ op = 0x27 ∨ op = 0x40 ∨ op = 0x41 := by
        simpa using hop
      · exact ⟨.crcInit, rfl, Nat.one_pos, fun _ => rfl⟩
      · exact ⟨.crcFeed, rfl, Nat.one_pos, fun _ => rfl⟩
      · exact ⟨.cancelWrite, rfl, Nat.one_pos, fun _ => rfl⟩
      · exact ⟨.tick, rfl, Nat.one_pos, fun _ => rfl⟩
      · exact ⟨.update, rfl, Nat.one_pos, fun _ => rfl⟩
    · exact ⟨.issueRead, rfl, Nat.lt_succ_of_le hsel, Bool.noConfusion⟩
    · exact ⟨.rio, rfl, Nat.lt_succ_of_le hsel, Bool.noConfusion⟩
    · obtain rfl | rfl | rfl | rfl | rfl : op = 0x21 ∨ op = 0x22 ∨ op = 0x23 ∨ op = 0x24 ∨ op = 0x25 := by
        simpa using hop
      · exact ⟨.netSelect, rfl, Nat.one_pos, Bool.noConfusion⟩
      · exact ⟨.jogSteps, rfl, Nat.one_pos, Bool.noConfusion⟩
      · exact ⟨.jogSpeed, rfl, Nat.one_pos, Bool.noConfusion⟩
      · exact ⟨.originOffset, rfl, Nat.one_pos, Bool.noConfusion⟩
      · exact ⟨.directDrive, rfl, Nat.one_pos, Bool.noConfusion⟩
    · exact ⟨.batchWrite, rfl, Nat.lt_succ_of_le hsel, fun _ => rfl⟩
    · exact ⟨.stage, rfl, Nat.lt_succ_of_le hsel, Bool.noConfusion⟩
  · rintro ⟨o, rfl, hsel, hid⟩
    cases o with
    | crcInit | crcFeed | cancelWrite | tick | update => exact .inl ⟨by decide, Nat.lt_one_iff.mp hsel, hid rfl⟩
    | issueRead => exact .inr (.inl ⟨rfl, Nat.le_of_lt_succ hsel⟩)
    | rio => exact .inr (.inr (.inl ⟨rfl, Nat.le_of_lt_succ hsel⟩))
    | netSelect | jogSteps | jogSpeed | originOffset | directDrive =>
      exact .inr (.inr (.inr (.inl ⟨by decide, Nat.lt_one_iff.mp hsel⟩)))
    | batchWrite => exact .inr (.inr (.inr (.inr (.inl ⟨rfl, Nat.le_of_lt_succ hsel, hid rfl⟩))))
    | stage => exact .inr (.inr (.inr (.inr (.inr ⟨rfl, Nat.le_of_lt_succ hsel⟩))))

theorem decode_command_ok_iff_legalFields (w : Word) : (∃ i, decode (.command w) = .ok i) ↔
    LegalFields (w.toNat / 2 ^ 24) (w.toNat / 2 ^ 16 % 256) (w.toNat / 2 ^ 8 % 256) (w.toNat % 256) := by
  rw [decode_command_ok_iff, legalFields_iff, ← toNat_opField, ← toNat_selField, ← toNat_idField, ← toNat_rsvField]
  simp only [BitVec.toNat_eq, BitVec.toNat_zero]

/-! ## A write of CMD (30_encoding.md R91) -/

theorem State.hostWrite_cmd_of_ok {w : Word} {i : Instr} (h : decode (.command w) = .ok i) (s : State) :
    s.hostWrite 0x000#12 w = exec i { s with cmd := w } := by
  have hwrite : s.hostWrite 0x000#12 w = s.runCommand w := rfl
  simp only [hwrite, State.runCommand, h]
  rfl

theorem State.hostWrite_cmd_of_not_ok {w : Word} (h : ∀ i, decode (.command w) ≠ .ok i) (s : State) :
    s.hostWrite 0x000#12 w = .next (flagged { s with cmd := w } 0) := by
  have hwrite : s.hostWrite 0x000#12 w = s.runCommand w := rfl
  cases hd : decode (.command w) with
  | ok i => exact absurd hd (h i)
  | error e =>
    simp only [hwrite, State.runCommand, hd, State.raise_eq_flagged]
    rfl

/-- Settles O4: the legal words are those that decode, and a write of CMD is decided by what its word decodes to. -/
theorem illegalWordsAreTheFourConditions : Obligations.IllegalWordsAreTheFourConditions := by
  intro s w
  have hlegal := decode_command_ok_iff_legalFields w
  refine ⟨fun h => ?_, fun h => ?_⟩
  · obtain ⟨i, hi⟩ := hlegal.mpr h
    exact ⟨i, hi, State.hostWrite_cmd_of_ok hi s⟩
  · exact State.hostWrite_cmd_of_not_ok (fun i hi => h (hlegal.mp ⟨i, hi⟩)) s

/-- Settles O1: the step is the write of CMD. -/
theorem stepRunsTheDecodedCommand : Obligations.StepRunsTheDecodedCommand := by
  intro s w rest hagenda
  rw [step_of_agenda hagenda]
  exact ⟨fun i hi => State.hostWrite_cmd_of_ok hi _, fun hnone => State.hostWrite_cmd_of_not_ok hnone _⟩

/-- Settles O7: each word by the opcode map, the frame as the encoding of its row. -/
theorem specWordsDecode : Obligations.SpecWordsDecode := by
  have hword (w : Word) (i : Instr) : mapWord i = some w → decode (.command w) = .ok i :=
    (commandWordsAreTheOpcodeMap w i).mpr
  exact ⟨hword _ _ rfl, hword _ _ rfl, hword _ _ rfl, hword _ _ rfl, hword _ _ rfl, rfl,
    decodeOfEncodeIsIdentity (.wireReadResp 1#8 3#8 1000#32 0x8DFA#16) rfl⟩

/-! ## The frames of the codec (41_frame_codec.md R150 to R154) -/

/-- A row whose encoding is a body with its trailer is what that frame decodes to. -/
theorem decode_withTrailer {body : List Byte} {row : Half → Instr}
    (henc : encode (row (crc16 body)) = .frame (withTrailer body)) (hwf : (row (crc16 body)).wellFormed = true) :
    ∃ c, decode (.frame (withTrailer body)) = .ok (row c) ∧ (row c).wellFormed = true := by
  have hshape : (row (crc16 body)).shapeOk = true := (Bool.and_eq_true_iff.mp hwf).1
  exact ⟨crc16 body, henc ▸ decodeOfEncodeIsIdentity _ hshape, hwf⟩

/-- Settles O8: each frame is the encoding of its row with the CRC of the body. -/
theorem codecFramesAreWireRows : Obligations.CodecFramesAreWireRows := by
  refine ⟨fun st addr => ?_, fun st addr v => ?_, fun st addr p v a d i t => ?_, fun addr vals hmin hmax hne => ?_⟩
  · exact decode_withTrailer rfl (beq_self_eq_true _)
  · exact decode_withTrailer rfl (beq_self_eq_true _)
  · exact decode_withTrailer rfl (beq_self_eq_true _)
  · have hshape : 1 ≤ vals.length ∧ vals.length ≤ 60 ∧ vals.length ≠ 1 ∧ vals.length ≠ 6 := by omega
    exact decode_withTrailer rfl (Bool.and_eq_true_iff.mpr ⟨decide_eq_true hshape, beq_self_eq_true _⟩)

/-! ## The frames byte by byte, as they arrive (30_encoding.md R101 to R105) -/

theorem trailer_eq_byteOf (c : Half) : trailer c = [byteOf c.toNat 0, byteOf c.toNat 1] := by
  rw [trailer, lo8_eq_byteOf, hi8_eq_byteOf]

theorem be16_eq_bytes16 (x : Half) : be16 x = bytes16 x := by
  rw [be16, hi8_eq_byteOf, lo8_eq_byteOf, bytes16]

/-- The bytes of a word, by the place they start at. -/
theorem extractLsb'_eq_byteOf (v : Word) (k : Nat) : v.extractLsb' (8 * k) 8 = byteOf v.toNat k := by
  apply BitVec.eq_of_toNat_eq
  rw [BitVec.extractLsb'_toNat, Nat.shiftRight_eq_div_pow, byteOf, BitVec.toNat_ofNat, Nat.pow_mul]

theorem be32_eq_bytes32 (v : Word) : be32 v = bytes32 v := by
  rw [bytes32, ← extractLsb'_eq_byteOf, ← extractLsb'_eq_byteOf, ← extractLsb'_eq_byteOf, ← extractLsb'_eq_byteOf]
  rfl

/-- A register count on the wire. -/
theorem be16_ofNat (n : Nat) : be16 (BitVec.ofNat 16 n) = [byteOf n 1, byteOf n 0] := by
  have hbyte (k : Nat) (hk : k ≤ 1) : byteOf (n % 2 ^ 16) k = byteOf n k := by
    apply BitVec.eq_of_toNat_eq
    interval_cases k
    · simp [byteOf]
    · simp [byteOf]
      omega
  rw [be16_eq_bytes16, bytes16, BitVec.toNat_ofNat, hbyte 1 le_rfl, hbyte 0 zero_le_one]

theorem bodyWrite_eq_bytes (st : Byte) (addr : Half) (vals : List Word) :
    bodyWrite st addr vals = [st, 0x10#8] ++ bytes16 addr
      ++ [byteOf (2 * vals.length) 1, byteOf (2 * vals.length) 0, byteOf (4 * vals.length) 0]
      ++ vals.flatMap bytes32 := by
  have hbytes : BitVec.ofNat 8 (4 * vals.length) = byteOf (4 * vals.length) 0 := by simp [byteOf]
  have hpayload : payload vals = vals.flatMap bytes32 := by rw [payload, funext be32_eq_bytes32]
  rw [bodyWrite, be16_eq_bytes16, be16_ofNat, hbytes, hpayload]
  simp

theorem bodyRead_eq_bytes (st : Byte) (addr : Half) :
    bodyRead st addr = [st, 0x03#8] ++ bytes16 addr ++ [0x00#8, 0x02#8] := by
  rw [bodyRead, be16_eq_bytes16 addr]
  rfl

theorem bodyResponse_eq_bytes (st fn : Byte) (v : Word) : bodyResponse st fn v = [st, fn, 0x04#8] ++ bytes32 v := by
  rw [bodyResponse, be32_eq_bytes32]

theorem bodyWrite_one_eq_oneValueBody (st : Byte) (addr : Half) (v : Word) :
    bodyWrite st addr [v] = oneValueBody st addr v := by
  rw [bodyWrite_eq_bytes]
  simp [oneValueBody, byteOf]

theorem bodyWrite_six_eq_directDriveBody (st : Byte) (addr : Half) (p v a d c t : Word) :
    bodyWrite st addr [p, v, a, d, c, t] = directDriveBody st addr p v a d c t := by
  rw [bodyWrite_eq_bytes]
  simp [directDriveBody, byteOf]

theorem State.next_receive_frame {body bytes : List Byte} (h : body = bytes) (s : State) (crc : Half) :
    (.next (s.receive (body ++ trailer crc)) : Host.Outcome State Fault Refusal)
      = .next { s with env :=
          { s.env with rx := s.env.rx ++ (bytes ++ [byteOf crc.toNat 0, byteOf crc.toNat 1]) } } := by
  rw [h, trailer_eq_byteOf]
  rfl

/-- Settles O57: each frame's body, byte by byte. -/
theorem wireFramesArrive : Obligations.WireFramesArrive := by
  intro s st fn addr crc p v a d c t vals
  exact ⟨s.next_receive_frame (bodyRead_eq_bytes st addr) crc,
    s.next_receive_frame (bodyResponse_eq_bytes st fn v) crc,
    s.next_receive_frame (bodyWrite_one_eq_oneValueBody st addr v) crc,
    s.next_receive_frame (bodyWrite_six_eq_directDriveBody st addr p v a d c t) crc,
    s.next_receive_frame (bodyWrite_eq_bytes 0x00#8 addr vals) crc⟩

end Sys2Proof.Machine

end

/-! # The CRC engine: O9 to O13 -/

section

namespace Sys2Proof.Machine

open Sys2Proof Sys2Proof.Claims

/-! ## The shift loop over the natural numbers (40_crc.md R130) -/

/-- One shift of R130's loop, as the statement writes it. -/
def crcShift (x : Nat) : Nat := if x % 2 = 1 then x / 2 ^^^ 0xA001 else x / 2

theorem crcBit_toNat (c : Half) : (crcBit c).toNat = crcShift c.toNat := by
  have hbit : c.getLsbD 0 = true ↔ c.toNat % 2 = 1 := by simp [BitVec.getLsbD]
  unfold crcBit crcShift
  by_cases hodd : c.toNat % 2 = 1
  · rw [if_pos (hbit.mpr hodd), if_pos hodd]
    simp [Nat.shiftRight_eq_div_pow]
  · rw [if_neg (mt hbit.mp hodd), if_neg hodd]
    simp [Nat.shiftRight_eq_div_pow]

theorem crcBits_toNat (n : Nat) (c : Half) : (crcBits n c).toNat = crcShift^[n] c.toNat := by
  induction n generalizing c with
  | zero => rfl
  | succ n ih => rw [crcBits, ih, crcBit_toNat, Function.iterate_succ_apply]

theorem crcStep_toNat (c : Half) (b : Byte) : (crcStep c b).toNat = crcShift^[8] (c.toNat ^^^ b.toNat) := by
  have hbyte : (b.setWidth 16).toNat = b.toNat := BitVec.toNat_setWidth_of_le (by omega)
  rw [crcStep, crcBits_toNat, BitVec.toNat_xor, hbyte]

/-- Settles O9: each of the eight shifts is `crcShift`; the three examples are computed. -/
theorem crcStepIsTheShiftLoop : Obligations.CrcStepIsTheShiftLoop :=
  ⟨crcStep_toNat, by decide, by decide, by decide⟩

/-! ## A CRC fed its own trailer (40_crc.md R131, R134) -/

/-- While only zeros are shifted out, nothing is XORed in. -/
theorem crcBits_eq_ushiftRight {n : Nat} {c : Half} (h : ∀ i < n, c.getLsbD i = false) : crcBits n c = c >>> n := by
  induction n generalizing c with
  | zero => simp [crcBits]
  | succ n ih =>
    have hbit : crcBit c = c >>> 1 := by rw [crcBit, h 0 n.succ_pos]; rfl
    have hrest : ∀ i < n, (c >>> 1).getLsbD i = false := by
      intro i hi
      rw [BitVec.getLsbD_ushiftRight]
      exact h (1 + i) (by omega)
    rw [crcBits, hbit, ih hrest, ← BitVec.shiftRight_add, Nat.add_comm]

/-- The low byte cancels and the eight shifts bring the high one down. -/
theorem crcStep_lo8 (c : Half) : crcStep c (lo8 c) = (hi8 c).setWidth 16 := by
  have hlow : ∀ i < 8, (c ^^^ (lo8 c).setWidth 16).getLsbD i = false := by
    intro i hi
    simp [lo8, hi, Nat.lt_of_lt_of_le hi]
  have hhigh : (c ^^^ (lo8 c).setWidth 16) >>> 8 = (hi8 c).setWidth 16 := by
    apply BitVec.eq_of_getLsbD_eq
    intro i hi
    interval_cases i <;> simp [hi8, lo8]
  rw [crcStep, crcBits_eq_ushiftRight hlow, hhigh]

theorem crcStep_setWidth_self (b : Byte) : crcStep (b.setWidth 16) b = 0#16 := by
  rw [crcStep, BitVec.xor_self]
  rfl

/-- Feeding a CRC its two bytes, the low one first, leaves 0. -/
theorem crcStep_byteOf_byteOf (c : Half) : crcStep (crcStep c (byteOf c.toNat 0)) (byteOf c.toNat 1) = 0x0000#16 := by
  rw [← lo8_eq_byteOf, ← hi8_eq_byteOf, crcStep_lo8, crcStep_setWidth_self]

/-- Settles O10: the trailer is the two bytes of the CRC that it follows. -/
theorem crcResidueIsZero : Obligations.CrcResidueIsZero := by
  intro m
  rw [frameOf, crc16_append]
  exact crcStep_byteOf_byteOf (crc16 m)

/-! ## The words of a command (30_encoding.md R92, R96) -/

theorem decode_command_iff_of_mapWord {i : Instr} {w : Word} (h : mapWord i = some w) (v : Word) :
    decode (.command v) = .ok i ↔ v = w := by
  rw [commandWordsAreTheOpcodeMap v i, h, Option.some_inj, eq_comm]

theorem Opcode.code_injective : Function.Injective Opcode.code := fun o o' h =>
  Option.some_inj.mp (by rw [← Opcode.ofByte_code o, h, Opcode.ofByte_code])

/-- Whatever the operation, a word with its OP that breaks another rule of R92 is refused. -/
theorem refusesOtherWords_code (o : Opcode) : RefusesOtherWords o.code.toNat (o.forms.length - 1) o.idFixed := by
  intro s w hop hbad
  refine State.hostWrite_cmd_of_not_ok (fun i hi => ?_) s
  obtain ⟨hrsv, o', hop', hsel, hid⟩ := (decode_command_ok_iff w).mp ⟨i, hi⟩
  obtain rfl : o' = o := by
    apply Opcode.code_injective
    rw [← hop', BitVec.toNat_eq, toNat_opField, hop]
  rw [← toNat_selField, ← toNat_rsvField, ← toNat_idField, hrsv] at hbad
  obtain hsel' | hrsv' | ⟨hfixed, hid'⟩ := hbad
  · omega
  · exact hrsv' rfl
  · exact hid' (by rw [hid hfixed]; rfl)

/-! ## CRC.INIT and CRC.FEED (40_crc.md R132, R133, R135) -/

@[simp] theorem exec_crcInit (s : State) : exec .crcInit s = .next (s.setCrcReg 0xFFFF#16) := rfl

@[simp] theorem exec_crcFeed (s : State) :
    exec .crcFeed s = .next (s.setCrcReg (crcStep s.crcReg s.feedByte)) := rfl

theorem State.feedByte_eq_byteOf (s : State) : s.feedByte = byteOf s.args.arg0.toNat 0 :=
  extractLsb'_eq_byteOf s.args.arg0 0

theorem State.feedByte_eq_ofNat (s : State) : s.feedByte = BitVec.ofNat 8 (s.args.arg0.toNat % 256) := by
  apply BitVec.eq_of_toNat_eq
  simp [s.feedByte_eq_byteOf, byteOf]

/-- Settles O11: CRC.INIT is one write of CRC_REG. -/
theorem crcInitResult : Obligations.CrcInitResult :=
  ⟨decode_command_iff_of_mapWord rfl, refusesOtherWords_code .crcInit, fun s =>
    ⟨exec_crcInit s, State.hostRead_of_ofOffset (r := .crc) rfl _⟩⟩

/-- Settles O12: CRC.FEED is one write of CRC_REG, and two of them feed a trailer. -/
theorem crcFeedResult : Obligations.CrcFeedResult := by
  refine ⟨decode_command_iff_of_mapWord rfl, refusesOtherWords_code .crcFeed, fun s => ?_, crcStep_byteOf_byteOf⟩
  rw [exec_crcFeed, s.feedByte_eq_ofNat]
  rfl

/-- Settles O13: a CRC with one more byte is one step from the CRC without it. -/
theorem crcFeedExtendsTheCrc : Obligations.CrcFeedExtendsTheCrc := by
  intro s m hcrc
  refine ⟨_, exec_crcFeed s, ?_⟩
  rw [State.setCrcReg_crcReg, crc16_snoc, hcrc, s.feedByte_eq_byteOf]

end Sys2Proof.Machine

end

/-! # The frame codec: O15 to O19 and O30 -/

section

namespace Sys2Proof.Machine

open Sys2Proof Sys2Proof.Claims

/-! ## Commands that queue a write (43_scheduler.md R233) -/

theorem State.enqueueWrite_of_room {s : State} (h : s.pendingWrites.length ≠ s.params.wqDepth) (body : List Byte) :
    s.enqueueWrite body = queued s body := by
  rcases s.enqueueWrite_cases body with ⟨hfull, -⟩ | ⟨-, e⟩
  · exact absurd hfull h
  · exact e

theorem State.enqueueWrite_of_full {s : State} (h : s.pendingWrites.length = s.params.wqDepth) (body : List Byte) :
    s.enqueueWrite body = flagged s 2 := by
  rcases s.enqueueWrite_cases body with ⟨-, e⟩ | ⟨hroom, -⟩
  · exact e.trans (s.raise_eq_flagged .qFull)
  · exact absurd h hroom

/-- All that is claimed of a queueing command, from its row of the opcode map and the body it enqueues. -/
theorem queueingCommand_result {s : State} {i : Instr} {w : Word} {o : Opcode} {body bytes : List Byte}
    (hword : mapWord i = some w) (hexec : exec i s = .next (s.enqueueWrite body)) (hbytes : body = bytes) :
    (∀ v, decode (.command v) = .ok i ↔ v = w) ∧ RefusesOtherWords o.code.toNat (o.forms.length - 1) o.idFixed ∧
    (s.pendingWrites.length ≠ s.params.wqDepth → exec i s = .next (queued s bytes)) ∧
    (s.pendingWrites.length = s.params.wqDepth → exec i s = .next (flagged s 2)) := by
  subst hbytes
  exact ⟨decode_command_iff_of_mapWord hword, refusesOtherWords_code o,
    fun hroom => by rw [hexec, State.enqueueWrite_of_room hroom],
    fun hfull => by rw [hexec, State.enqueueWrite_of_full hfull]⟩

/-- Settles O15: each command enqueues the one-value body of its mask. -/
theorem rioCommandsQueueTheirMask : Obligations.RioCommandsQueueTheirMask := by
  intro s id i c mask hi
  simp only [List.mem_cons, Prod.mk.injEq, List.not_mem_nil, or_false] at hi
  rcases hi with ⟨rfl, rfl, rfl⟩ | ⟨rfl, rfl, rfl⟩ | ⟨rfl, rfl, rfl⟩ | ⟨rfl, rfl, rfl⟩ | ⟨rfl, rfl, rfl⟩
    | ⟨rfl, rfl, rfl⟩ | ⟨rfl, rfl, rfl⟩ | ⟨rfl, rfl, rfl⟩
  all_goals exact queueingCommand_result (o := .rio) rfl rfl (bodyWrite_one_eq_oneValueBody ..)

/-- Settles O16: each command enqueues the one-value body of `ARG0` at its own address. -/
theorem arg0CommandsQueueArg0 : Obligations.Arg0CommandsQueueArg0 := by
  intro s id i op addr hi
  simp only [List.mem_cons, Prod.mk.injEq, List.not_mem_nil, or_false] at hi
  rcases hi with ⟨rfl, rfl, rfl⟩ | ⟨rfl, rfl, rfl⟩ | ⟨rfl, rfl, rfl⟩ | ⟨rfl, rfl, rfl⟩
  · exact queueingCommand_result (o := .netSelect) rfl rfl (bodyWrite_one_eq_oneValueBody ..)
  · exact queueingCommand_result (o := .jogSteps) rfl rfl (bodyWrite_one_eq_oneValueBody ..)
  · exact queueingCommand_result (o := .jogSpeed) rfl rfl (bodyWrite_one_eq_oneValueBody ..)
  · exact queueingCommand_result (o := .originOffset) rfl rfl (bodyWrite_one_eq_oneValueBody ..)

/-- Settles O17: DD enqueues the six-value body of the ARG registers. -/
theorem directDriveQueuesSixValues : Obligations.DirectDriveQueuesSixValues := fun _ _ =>
  queueingCommand_result (o := .directDrive) rfl rfl (bodyWrite_six_eq_directDriveBody ..)

/-! ## Batch writes (41_frame_codec.md R163, R165) -/

theorem bodyWrite_batchValues_eq_batchBody {s : State} (h : s.rb.Sized s.params.nMotors) (addr : Half) (k : RbKind) :
    bodyWrite 0x00#8 addr (s.batchValues k) = batchBody addr (s.rb.bank k) := by
  rw [State.batchValues_eq_bank h, bodyWrite_eq_bytes]
  rfl

/-- Settles O18: each command enqueues the body of its bank as it stands. -/
theorem batchCommandsQueueTheBuffer : Obligations.BatchCommandsQueueTheBuffer := by
  intro s i c addr vals hsized hi
  simp only [List.mem_cons, Prod.mk.injEq, List.not_mem_nil, or_false] at hi
  rcases hi with ⟨rfl, rfl, rfl, rfl⟩ | ⟨rfl, rfl, rfl, rfl⟩ | ⟨rfl, rfl, rfl, rfl⟩ | ⟨rfl, rfl, rfl, rfl⟩
    | ⟨rfl, rfl, rfl, rfl⟩
  all_goals exact queueingCommand_result (o := .batchWrite) rfl rfl (bodyWrite_batchValues_eq_batchBody hsized _ _)

/-- The four bytes from 4j on of a payload are value `j`. -/
theorem take_drop_payload {vals : List Word} {j : Nat} {v : Word} (h : vals[j]? = some v) :
    ((payload vals).drop (4 * j)).take 4 = be32 v := by
  induction vals generalizing j with
  | nil => simp at h
  | cons u vals ih =>
    rw [payload_cons]
    cases j with
    | zero =>
      obtain rfl : u = v := by simpa using h
      exact List.take_left' (be32_length u)
    | succ j =>
      rw [show 4 * (j + 1) = 4 + 4 * j by omega, ← List.drop_drop, List.drop_left' (be32_length u)]
      exact ih (by simpa using h)

theorem drop_bodyWrite (st : Byte) (addr : Half) (vals : List Word) (n : Nat) :
    (bodyWrite st addr vals).drop (7 + n) = (payload vals).drop n := by
  rw [← List.drop_drop]
  rfl

theorem State.batchValues_getElem? {s : State} {j : Nat} (h : j < s.params.nMotors) (k : RbKind) :
    (s.batchValues k)[j]? = some (s.rbValue k (j + 1)) := by
  simp [State.batchValues, h]

/-- Settles O19: past the seven bytes before the payload, the windows are the values in order. -/
theorem batchWindowsFollowTheMotors : Obligations.BatchWindowsFollowTheMotors := by
  intro s i k hi hroom
  obtain ⟨addr, hexec⟩ : ∃ addr, exec i s = .next (s.enqueueWrite (bodyWrite 0x00#8 addr (s.batchValues k))) := by
    simp only [List.mem_cons, Prod.mk.injEq, List.not_mem_nil, or_false] at hi
    rcases hi with ⟨rfl, rfl⟩ | ⟨rfl, rfl⟩ | ⟨rfl, rfl⟩ | ⟨rfl, rfl⟩ | ⟨rfl, rfl⟩
    all_goals exact ⟨_, rfl⟩
  rw [State.enqueueWrite_of_room hroom] at hexec
  refine ⟨_, _, hexec, rfl, by simp, fun j hj => ?_⟩
  rw [drop_bodyWrite, take_drop_payload (State.batchValues_getElem? hj k), be32_eq_bytes32]

/-! ## A tick on one valid response (43_scheduler.md R255) -/

/-- The Response of a valid frame of the read-response shape (42_parser.md R206). -/
def responseOf (st fn : Byte) (ds : List Byte) : Response where
  stationId := st
  function  := fn
  byteCount := byteOf ds.length 0
  data      := ds
  crc16     := crc16 ([st, fn, byteOf ds.length 0] ++ ds)

theorem byteOf_zero (n : Nat) : byteOf n 0 = BitVec.ofNat 8 n := by
  simp [byteOf]

theorem State.finishFrame_of_valid (s : State) {b : Byte} (hcrc : s.parser.rxCrc b = s.parser.acc)
    (hroom : s.ready.length < s.params.readyDepth) :
    s.finishFrame b = (s.setReady (s.ready ++ [s.parser.response b])).setParser s.parser.stepCrcHi := by
  simp [State.finishFrame, State.readyPush, hcrc, hroom]

/-- At the trailer of a frame, the bytes of the running CRC accept it, and beside the parser nothing else changes. -/
theorem State.feed_trailer_acc {s : State} (hcrc : s.parser.state = .crc) (hidx : s.parser.idx = 0#8)
    (hroom : s.ready.length < s.params.readyDepth) :
    ∃ p, s.feed (trailer s.parser.acc) = (s.setReady (s.ready ++
      [{ stationId := s.parser.station, function := s.parser.func, byteCount := s.parser.size
         data := s.parser.data.take s.parser.size.toNat, crc16 := s.parser.acc }])).setParser p := by
  have hrx : (s.parser.stepCrcLo (lo8 s.parser.acc)).rxCrc (hi8 s.parser.acc) = s.parser.acc := trailerCrc_lo8_hi8 _
  refine ⟨(s.parser.stepCrcLo (lo8 s.parser.acc)).stepCrcHi, ?_⟩
  rw [trailer, State.feed_trailer hcrc hidx,
    State.finishFrame_of_valid (s.setParser (s.parser.stepCrcLo (lo8 s.parser.acc))) hrx hroom, State.setParser_parser,
    Parser.response, hrx]
  rfl

/-- A valid frame taken from ADDRESS is kept as its Response, and beside the parser nothing else changes. -/
theorem State.feed_responseFrame {s : State} (haddr : s.parser.state = .address) (hdata : s.parser.data.length = 255)
    (hroom : s.ready.length < s.params.readyDepth) (st fn : Byte) {ds : List Byte} (hds : ds.length ≤ 255) :
    ∃ p, s.feed (responseFrame st fn ds) = (s.setReady (s.ready ++ [responseOf st fn ds])).setParser p := by
  obtain ⟨d, -, htake, hbody⟩ := State.feed_body haddr hdata st fn ds hds
  have hsize : (BitVec.ofNat 8 ds.length).toNat = ds.length := by simp; omega
  rw [responseFrame, ← withTrailer_eq_frameOf, withTrailer, State.feed_append, byteOf_zero, hbody]
  refine (State.feed_trailer_acc ?_ ?_ ?_).imp fun p htrailer => htrailer.trans ?_
  · rfl
  · rfl
  · exact hroom
  · rw [responseOf, byteOf_zero]
    simp only [State.setParser_parser, hsize, htake]
    rfl

theorem State.setReady_self (s : State) : s.setReady s.ready = s := rfl

/-- A tick on exactly one valid frame is the line step and then `Correlate` on its Response. -/
theorem State.tick_responseFrame {s : State} (hlisten : Listening s) {st fn : Byte} {ds : List Byte}
    (hds : ds.length ≤ 255) (hrx : s.env.rx = responseFrame st fn ds) :
    ∃ p, s.tick = ((s.countTick.lineStep.clearRx).setParser p).correlate (responseOf st fn ds) := by
  obtain ⟨hopen, haddr, hdata, hready, hdepth, -⟩ := hlisten
  generalize hline : s.countTick.lineStep.clearRx = u
  have hempty : u.ready = [] := by simpa [← hline] using hready
  obtain ⟨p, hfeed⟩ := State.feed_responseFrame (s := u) (by simpa [← hline] using haddr)
    (by simpa [← hline] using hdata) (by simpa [← hline, hready] using Nat.lt_of_succ_le hdepth) st fn hds
  have hself : (u.setParser p).setReady [] = u.setParser p := hempty ▸ State.setReady_self (u.setParser p)
  have hdrained : ((u.setParser p).correlate (responseOf st fn ds)).ready = [] := by simpa using hempty
  refine ⟨p, ?_⟩
  calc s.tick
      = (u.feed (responseFrame st fn ds)).drainReady (u.feed (responseFrame st fn ds)).ready := by
        rw [State.tick_eq_drainReady hopen, hrx, hline]
    _ = (((u.setParser p).setReady []).correlate (responseOf st fn ds)).setReady [] := by
        rw [hfeed, hempty]
        rfl
    _ = (u.setParser p).correlate (responseOf st fn ds) := by
        rw [hself, ← hdrained, State.setReady_self]

/-- A head read that is sent in this tick, or awaits below its threshold, stays the head, for the same motor and
kind (43_scheduler.md R252, R253). -/
theorem State.lineStep_keepsHead {s : State} {h : PendingRequest} {rest : List PendingRequest}
    (hreads : s.pendingReads = h :: rest) (hwait : h.state = .created ∨ h.ticksWaited + 1#32 < h.timeoutTicks) :
    ∃ h' : PendingRequest, s.lineStep.pendingReads = h' :: rest ∧ h'.motorId = h.motorId ∧ h'.kind = h.kind
      ∧ s.lineStep.err = s.err ∧ s.lineStep.cntTimeout = s.cntTimeout := by
  rcases s.lineStep_cases with ⟨q, _, hq, -, e⟩ | ⟨q, _, hq, hstate, e⟩ | ⟨_, _, hq, -, -⟩ | ⟨hq, -, -⟩ <;>
    rw [hreads] at hq
  · obtain ⟨rfl, rfl⟩ := List.cons.inj hq
    rw [e]
    exact ⟨_, rfl, rfl, rfl, rfl, rfl⟩
  · obtain ⟨rfl, rfl⟩ := List.cons.inj hq
    have hbelow := hwait.resolve_left (by simp [hstate])
    rcases s.awaitRead_cases h rest with ⟨hreached, -⟩ | ⟨-, e'⟩
    · exact absurd hbelow (BitVec.not_lt.mpr hreached)
    · rw [e, e']
      exact ⟨_, rfl, rfl, rfl, rfl, rfl⟩
  · cases hq
  · cases hq

/-! ## A response with a value (41_frame_codec.md R153, 43_scheduler.md R256, R257) -/

theorem decode32_responseOf_bytes32 (st fn : Byte) (v : Word) : decode32 (responseOf st fn (bytes32 v)) = some v := by
  rw [← be32_eq_bytes32]
  simp [decode32, responseOf, byteOf_zero, be32]

theorem State.correlate_of_value {s : State} {h : PendingRequest} {rest : List PendingRequest} {r : Response} {v : Word}
    (hreads : s.pendingReads = h :: rest) (hvalue : decode32 r = some v) :
    s.correlate r = ((s.setReads rest).applyValue h.motorId.toNat h.kind v).countResolved := by
  simp [State.correlate, hreads, hvalue]

theorem State.applyValue_eq_modifyResult (s : State) (m : Nat) (k : RegKind) (v : Word) :
    s.applyValue m k v = s.modifyResult m fun r => applied r k v := by
  cases k <;> rfl

theorem State.result_applyValue {s : State} (hlen : s.results.length = s.params.nMotors) {m : Nat} (hm : s.HasMotor m)
    (k : RegKind) (v : Word) (j : Nat) :
    (s.applyValue m k v).result j = if j = m then applied (s.result j) k v else s.result j := by
  rw [State.applyValue_eq_modifyResult, State.result_modifyResult hlen hm]
  split_ifs with hj
  · rw [hj]
  · rfl

/-- Settles O30: the line step keeps the head, the parser keeps the Response, and `Correlate` applies its value. -/
theorem readResponseReachesTheResultRegister : Obligations.ReadResponseReachesTheResultRegister := by
  intro s h rest st fn v hlisten hreads hmin hmax hwait hrx
  have ⟨_, _, _, _, _, hlen⟩ := hlisten
  obtain ⟨p, htick⟩ := State.tick_responseFrame hlisten (by simp [bytes32]) hrx
  obtain ⟨h', hreads', hmotor, hkind, herr, htimeout⟩ := State.lineStep_keepsHead (s := s.countTick) hreads hwait
  generalize hline : s.countTick.lineStep.clearRx.setParser p = u at htick
  have hureads : u.pendingReads = h' :: rest := by rw [← hline]; exact hreads'
  rw [State.correlate_of_value hureads (decode32_responseOf_bytes32 st fn v), hmotor, hkind] at htick
  have hparams : u.params = s.params := by simp [← hline]
  have hresults : u.results = s.results := by simp [← hline]
  have hresult (m : Nat) :
      s.tick.result m = if m = h.motorId.toNat then applied (s.result m) h.kind v else s.result m := by
    rw [htick, ← State.result_congr hparams hresults]
    exact State.result_applyValue (s := u.setReads rest) (by simpa [hparams, hresults] using hlen)
      (by simpa [hparams, State.HasMotor] using ⟨hmin, hmax⟩) h.kind v m
  rw [State.applyValue_frame] at htick
  refine ⟨s.tick, exec_tick s, ?_, ?_, ?_, ?_, ?_, hresult⟩
  all_goals rw [htick]
  · rfl
  · simpa [← hline] using herr
  · simp [← hline]
  · simp [← hline]
  · simpa [← hline] using htimeout

end Sys2Proof.Machine

end

/-! # The parser: O29, O34 and O60 -/

section

namespace Sys2Proof.Machine

open Sys2Proof Sys2Proof.Claims

/-! ## One frame of the read-response shape (42_parser.md R205 to R207) -/

theorem trailerCrc_eq_ofNat (lo hi : Byte) : trailerCrc lo hi = BitVec.ofNat 16 (lo.toNat + 256 * hi.toNat) := by
  have hlo : lo.toNat < 2 ^ 8 := lo.isLt
  have hhi : hi.toNat < 2 ^ 8 := hi.isLt
  have hor : hi.toNat * 2 ^ 8 ||| lo.toNat = hi.toNat * 2 ^ 8 + lo.toNat := by
    rw [← Nat.shiftLeft_eq, Nat.shiftLeft_add_eq_or_of_lt hlo]
  apply BitVec.eq_of_toNat_eq
  calc (trailerCrc lo hi).toNat = hi.toNat * 2 ^ 8 ||| lo.toNat := by
        rw [trailerCrc, BitVec.toNat_or, BitVec.toNat_shiftLeft, BitVec.toNat_setWidth, BitVec.toNat_setWidth,
          Nat.shiftLeft_eq, Nat.or_comm, Nat.mod_eq_of_lt, Nat.mod_eq_of_lt, Nat.mod_eq_of_lt] <;> omega
    _ = (BitVec.ofNat 16 (lo.toNat + 256 * hi.toNat)).toNat := by
        rw [hor, BitVec.toNat_ofNat]
        omega

/-- The Response of a frame whose trailer is `lo`, `hi` (42_parser.md R206). -/
def receivedResponse (st fn : Byte) (ds : List Byte) (lo hi : Byte) : Response where
  stationId := st
  function  := fn
  byteCount := byteOf ds.length 0
  data      := ds
  crc16     := trailerCrc lo hi

/-- The parser once all of a frame but its last byte is in: it holds the CRC of the body and the frame's fields. -/
structure Parser.AtLastByte (p : Parser) (st fn : Byte) (ds : List Byte) (lo : Byte) : Prop where
  state : p.state = .crc
  idx : p.idx = 1#8
  acc : p.acc = crc16 ([st, fn, byteOf ds.length 0] ++ ds)
  crcLo : p.crcLo = lo
  response (hi : Byte) : p.response hi = receivedResponse st fn ds lo hi

/-- All of a frame but its last byte moves the parser and changes nothing else (42_parser.md R201 to R205). -/
theorem State.feed_allButLastByte {s : State} (haddr : s.parser.state = .address) (hdata : s.parser.data.length = 255)
    (st fn lo : Byte) {ds : List Byte} (hds : ds.length ≤ 255) :
    ∃ p : Parser, p.AtLastByte st fn ds lo
      ∧ s.feed ([st, fn, byteOf ds.length 0] ++ ds ++ [lo]) = s.setParser p := by
  obtain ⟨d, -, htake, hbody⟩ := State.feed_body haddr hdata st fn ds hds
  have hsize : (BitVec.ofNat 8 ds.length).toNat = ds.length := by simp; omega
  rw [← byteOf_zero] at hbody hsize
  rw [State.feed_append, hbody, State.feed_cons, State.feed_nil, State.parserStep_crcLo rfl rfl, State.setParser_setParser]
  exact ⟨_, ⟨rfl, rfl, rfl, rfl, fun hi => by
    simp only [Parser.response, Parser.stepCrcLo, State.setParser_parser, hsize, htake]; rfl⟩, rfl⟩

theorem State.readyPush_setParser (s : State) (p : Parser) (r : Response) :
    (s.setParser p).readyPush r = (s.readyPush r).setParser p :=
  (apply_ite (State.setParser · p) (s.ready.length < s.params.readyDepth) (s.setReady (s.ready ++ [r]))
    (s.raise .rovf)).symm

/-- A whole frame is accepted if its trailer is the CRC of its body, else discarded with CRCERR, and either way the
parser is back in ADDRESS (42_parser.md R206, R207; 60_exceptions.md R335). -/
theorem State.feed_wholeFrame {s : State} (haddr : s.parser.state = .address) (hdata : s.parser.data.length = 255)
    (st fn lo hi : Byte) {ds : List Byte} (hds : ds.length ≤ 255) :
    ∃ p : Parser, p.state = .address ∧ p.idx = 0#8 ∧ s.feed ([st, fn, byteOf ds.length 0] ++ ds ++ [lo, hi]) =
      (if trailerCrc lo hi = crc16 ([st, fn, byteOf ds.length 0] ++ ds) then
        s.readyPush (receivedResponse st fn ds lo hi)
      else (s.raise .crcErr).countCrcErr).setParser p := by
  obtain ⟨q, hq, hfeed⟩ := State.feed_allButLastByte haddr hdata st fn lo hds
  refine ⟨q.stepCrcHi, rfl, rfl, ?_⟩
  have hstate : (s.setParser q).parser.state = .crc := hq.state
  have hidx : (s.setParser q).parser.idx ≠ 0#8 := by simp [hq.idx]
  rw [show [lo, hi] = [lo] ++ [hi] from rfl, ← List.append_assoc, State.feed_append, hfeed]
  rw [State.feed_cons, State.feed_nil, State.parserStep_crcHi hstate hidx, State.finishFrame]
  simp only [State.setParser_parser, hq.response, hq.acc, Parser.rxCrc, hq.crcLo, State.readyPush_setParser]
  split_ifs
  · rfl
  · rfl

/-- Settles O29: by the trailer and the room in the ready queue. -/
theorem parserTakesOneFrame : Obligations.ParserTakesOneFrame := by
  intro s st fn lo hi ds haddr hdata hds body t rx
  obtain ⟨p, hstate, hidx, hfeed⟩ := State.feed_wholeFrame haddr hdata st fn lo hi hds
  have hrx : rx = trailerCrc lo hi := (trailerCrc_eq_ofNat lo hi).symm
  change t = _ at hfeed
  rw [hfeed, hrx]
  refine ⟨hstate, hidx, fun hvalid hroom => ?_, fun hvalid hfull => ?_, fun hother => ?_⟩
  · rw [if_pos hvalid, State.readyPush, if_pos hroom]
    rfl
  · rw [if_pos hvalid, State.readyPush, if_neg (Nat.not_lt.mpr hfull)]
    exact s.raise_eq_flagged .rovf
  · rw [if_neg hother]
    rfl

/-! ## The end of a frame attempt (90_conflicts.md C2) -/

/-- The most bytes that can come before the parser is back in ADDRESS: the rest of the header, of the data and of the
trailer. -/
def Parser.bytesLeft (p : Parser) : Nat :=
  match p.state with
  | .address  => 260
  | .function => 259
  | .size     => 258
  | .data     => p.size.toNat - p.idx.toNat + 2
  | .crc      => 2 - p.idx.toNat

theorem Parser.bytesLeft_le (p : Parser) : p.bytesLeft ≤ 260 := by
  have := p.size.isLt
  unfold Parser.bytesLeft
  split <;> omega

theorem Parser.bytesLeft_pos {p : Parser} (h : p.idxOk = true) : 0 < p.bytesLeft := by
  cases hs : p.state <;> simp only [Parser.idxOk, Parser.bytesLeft, hs, decide_eq_true_eq] at h ⊢ <;> omega

/-- `p` is back in ADDRESS, or it is inside a frame with fewer than `n` bytes to come. -/
def Parser.EndsBefore (p : Parser) (n : Nat) : Prop :=
  p.state = .address ∨ p.idxOk = true ∧ p.bytesLeft < n

/-- A data byte is the last of the data, or the index goes one on (42_parser.md R204). -/
theorem Parser.stepData_bytesLeft {p : Parser} (hs : p.state = .data) (h : p.idxOk = true) (b : Byte) :
    (p.stepData b).idxOk = true ∧ (p.stepData b).bytesLeft < p.bytesLeft := by
  have hsize := p.size.isLt
  simp only [Parser.idxOk, hs, decide_eq_true_eq] at h
  by_cases hlast : p.idx + 1#8 = p.size
  · have hleft : 2 < p.bytesLeft := by simp only [Parser.bytesLeft, hs]; omega
    exact ⟨by simp [Parser.idxOk, Parser.stepData, hlast],
      by simpa [Parser.bytesLeft, Parser.stepData, hlast] using hleft⟩
  · have hnext : (p.idx + 1#8).toNat = p.idx.toNat + 1 := by
      rw [BitVec.toNat_add]; simp; omega
    have hne : p.idx.toNat + 1 ≠ p.size.toNat := fun e => hlast (BitVec.eq_of_toNat_eq (hnext.trans e))
    simp only [Parser.idxOk, Parser.bytesLeft, Parser.stepData, if_neg hlast, hnext, hs, decide_eq_true_eq]
    omega

/-- Every byte brings the parser nearer to ADDRESS (42_parser.md R201 to R206). -/
theorem State.parserStep_endsBefore {s : State} (h : s.parser.idxOk = true) (b : Byte) :
    (s.parserStep b).parser.EndsBefore s.parser.bytesLeft := by
  cases hs : s.parser.state with
  | address =>
    rw [State.parserStep_address hs]
    simp only [Parser.idxOk, hs] at h
    exact .inr ⟨h, by simp [Parser.bytesLeft, Parser.stepAddress, hs]⟩
  | function =>
    rw [State.parserStep_function hs]
    simp only [Parser.idxOk, hs] at h
    exact .inr ⟨h, by simp [Parser.bytesLeft, Parser.stepFunction, hs]⟩
  | size =>
    rw [State.parserStep_size hs]
    by_cases hb : b = 0#8
    · exact .inr (by simp [Parser.idxOk, Parser.bytesLeft, Parser.stepSize, hs, hb])
    · have hpos : 0 < b.toNat := Nat.pos_of_ne_zero fun h0 => hb (BitVec.eq_of_toNat_eq h0)
      have hlt := b.isLt
      exact .inr ⟨by simpa [Parser.idxOk, Parser.stepSize, hb],
        by simp [Parser.bytesLeft, Parser.stepSize, hs, hb]; omega⟩
  | data =>
    rw [State.parserStep_data hs]
    exact .inr (Parser.stepData_bytesLeft hs h b)
  | crc =>
    by_cases hidx : s.parser.idx = 0#8
    · rw [State.parserStep_crcLo hs hidx]
      exact .inr (by simp [Parser.idxOk, Parser.bytesLeft, Parser.stepCrcLo, hs, hidx])
    · rw [State.parserStep_crcHi hs hidx]
      exact .inl rfl

/-- As many bytes as can come before the parser is back in ADDRESS bring it there. -/
theorem State.feed_reaches_address {s : State} (h : s.parser.idxOk = true) {bs : List Byte}
    (hlen : s.parser.bytesLeft ≤ bs.length) :
    ∃ k, 1 ≤ k ∧ k ≤ s.parser.bytesLeft ∧ (s.feed (bs.take k)).parser.state = .address := by
  have hpos := Parser.bytesLeft_pos h
  induction bs generalizing s with
  | nil => exact absurd hlen (Nat.not_le.mpr hpos)
  | cons b bs ih =>
    rcases s.parserStep_endsBefore h b with haddr | ⟨hok, hfewer⟩
    · exact ⟨1, Nat.le_refl 1, hpos, by simpa using haddr⟩
    · rw [List.length_cons] at hlen
      obtain ⟨k, -, hk, haddr⟩ := ih hok (by omega) (Parser.bytesLeft_pos hok)
      exact ⟨k + 1, by omega, by omega, by simpa using haddr⟩

/-- Settles O34: from any state of the parser at most 260 bytes are left. -/
theorem frameAttemptEndsWithin260Bytes : Obligations.FrameAttemptEndsWithin260Bytes := by
  intro s bs hok hlen
  have hbound := s.parser.bytesLeft_le
  obtain ⟨k, hk, hle, haddr⟩ := State.feed_reaches_address hok (hbound.trans hlen)
  exact ⟨k, hk, hle.trans hbound, haddr⟩

/-! ## Bytes over two ticks (42_parser.md R210) -/

/-- An open tick runs the parser over the waiting bytes, as far as the parser, CNT_CRC_ERR and the flags that neither
the line step, nor correlation, nor a full ready queue raises are concerned. -/
theorem State.tick_feed {s : State} (hopen : s.env.isOpen = true) {c : Nat} (h4 : c ≠ 4) (h5 : c ≠ 5) (h7 : c ≠ 7) :
    s.tick.parser = (s.feed s.env.rx).parser ∧ s.tick.cntCrcErr = (s.feed s.env.rx).cntCrcErr
      ∧ s.tick.err.getLsbD c = (s.feed s.env.rx).err.getLsbD c := by
  rw [State.tick_eq_drainReady hopen, State.drainReady_parser, State.drainReady_cntCrcErr,
    State.drainReady_err_getLsbD _ h5]
  exact State.feed_congr s.env.rx h7 (by simp) (by simp) (State.lineStep_err_getLsbD s.countTick h4)

/-- `bs` are the bytes that the transport holds for the next tick (20_memory.md R78). -/
def State.withRx (s : State) (bs : List Byte) : State := { s with env := { s.env with rx := bs } }

@[simp] theorem State.withRx_params (s : State) (bs : List Byte) : (s.withRx bs).params = s.params := rfl
@[simp] theorem State.withRx_err (s : State) (bs : List Byte) : (s.withRx bs).err = s.err := rfl
@[simp] theorem State.withRx_cntResolved (s : State) (bs : List Byte) : (s.withRx bs).cntResolved = s.cntResolved := rfl
@[simp] theorem State.withRx_parser (s : State) (bs : List Byte) : (s.withRx bs).parser = s.parser := rfl
@[simp] theorem State.withRx_ready (s : State) (bs : List Byte) : (s.withRx bs).ready = s.ready := rfl
@[simp] theorem State.withRx_results (s : State) (bs : List Byte) : (s.withRx bs).results = s.results := rfl

/-- The bytes of two open ticks go through the parser as one run. -/
theorem State.tick_tick_feed {s : State} (hopen : s.env.isOpen = true) (later : List Byte) {c : Nat} (h4 : c ≠ 4)
    (h5 : c ≠ 5) (h7 : c ≠ 7) :
    (s.tick.withRx later).tick.parser = (s.feed (s.env.rx ++ later)).parser
      ∧ (s.tick.withRx later).tick.cntCrcErr = (s.feed (s.env.rx ++ later)).cntCrcErr
      ∧ (s.tick.withRx later).tick.err.getLsbD c = (s.feed (s.env.rx ++ later)).err.getLsbD c := by
  obtain ⟨hparser, hcnt, herr⟩ := State.tick_feed hopen h4 h5 h7
  obtain ⟨hparser', hcnt', herr'⟩ := State.feed_congr later (s := s.tick.withRx later) h7 hparser hcnt herr
  obtain ⟨hu, hucnt, huerr⟩ := State.tick_feed (s := s.tick.withRx later) (s.tick_env_isOpen.trans hopen) h4 h5 h7
  rw [State.feed_append]
  exact ⟨hu.trans hparser', hucnt.trans hcnt', huerr.trans herr'⟩

/-! ## A read response over two ticks -/

/-- The ready queue only grows while bytes are taken. -/
theorem State.ready_prefix_feed (bs : List Byte) (s : State) : s.ready <+: (s.feed bs).ready := by
  induction bs generalizing s with
  | nil => exact List.prefix_refl _
  | cons b bs ih =>
    refine List.IsPrefix.trans ?_ (ih (s.parserStep b))
    rcases s.parserStep_cases b with ⟨p, e⟩ | e | e | e <;> rw [e]
    · exact List.prefix_refl _
    · exact List.prefix_append _ _
    · exact List.prefix_refl _
    · exact List.prefix_refl _

/-- A part of a response frame that is short of the whole completes no Response. -/
theorem State.feed_ready_of_partOfFrame {s : State} (haddr : s.parser.state = .address)
    (hdata : s.parser.data.length = 255) {st fn : Byte} {ds part rest : List Byte} (hds : ds.length ≤ 255)
    (hframe : part ++ rest = responseFrame st fn ds) (hrest : rest ≠ []) : (s.feed part).ready = s.ready := by
  generalize hlo : byteOf (crc16 ([st, fn, byteOf ds.length 0] ++ ds)).toNat 0 = lo
  obtain ⟨p, -, hfeed⟩ := State.feed_allButLastByte haddr hdata st fn lo hds
  obtain ⟨more, hmore⟩ : part <+: [st, fn, byteOf ds.length 0] ++ ds ++ [lo] := by
    have hprefix : part <+: [st, fn, byteOf ds.length 0] ++ ds ++ [lo] ++ [_] := ⟨rest, by
      rw [hframe, responseFrame, frameOf, hlo, List.append_assoc (_ ++ ds)]; rfl⟩
    refine (List.prefix_concat_iff.mp hprefix).resolve_left fun hwhole => hrest ?_
    rw [hwhole, responseFrame, frameOf, hlo] at hframe
    simpa using hframe
  rw [← hmore, State.feed_append] at hfeed
  have hbelow : (s.feed part).ready <+: s.ready := by
    have := State.ready_prefix_feed more (s.feed part)
    rwa [hfeed] at this
  exact hbelow.eq_of_length_le (State.ready_prefix_feed part s).length_le

/-- With no Response completed, an open tick is its line step and the parser's run over the waiting bytes. -/
theorem State.tick_of_noResponse {s : State} (hopen : s.env.isOpen = true)
    (hready : (s.countTick.lineStep.clearRx.feed s.env.rx).ready = []) :
    s.tick = s.countTick.lineStep.clearRx.feed s.env.rx := by
  rw [State.tick_eq_drainReady hopen, hready, State.drainReady_nil, ← hready, State.setReady_self]

/-- With one Response completed, an open tick ends with `Correlate` on it (43_scheduler.md R255). -/
theorem State.tick_of_oneResponse {s : State} (hopen : s.env.isOpen = true) {r : Response}
    (hready : (s.countTick.lineStep.clearRx.feed s.env.rx).ready = [r]) :
    s.tick = ((s.countTick.lineStep.clearRx.feed s.env.rx).setReady []).correlate r := by
  rw [State.tick_eq_drainReady hopen, hready, State.drainReady_cons, State.drainReady_nil]
  generalize hcorr : ((s.countTick.lineStep.clearRx.feed s.env.rx).setReady []).correlate r = u
  have hempty : u.ready = [] := by simp [← hcorr]
  rw [← hempty, State.setReady_self]

/-- A Response with a value resolves the head read: the value reaches the head's register and no flag is raised
(43_scheduler.md R256, R257). -/
theorem State.correlate_value_resolves {s : State} {h : PendingRequest} {rest : List PendingRequest} {r : Response}
    {v : Word} (hreads : s.pendingReads = h :: rest) (hvalue : decode32 r = some v)
    (hlen : s.results.length = s.params.nMotors) (hm : s.HasMotor h.motorId.toNat) :
    (s.correlate r).pendingReads = rest ∧ (s.correlate r).err = s.err
      ∧ (s.correlate r).cntResolved = s.cntResolved + 1
      ∧ ∀ m, (s.correlate r).result m =
          if m = h.motorId.toNat then applied (s.result m) h.kind v else s.result m := by
  have hresult := State.result_applyValue (s := s.setReads rest) hlen hm h.kind v
  rw [State.correlate_of_value hreads hvalue]
  refine ⟨?_, ?_, ?_, hresult⟩
  all_goals rw [State.applyValue_frame]; rfl

/-- A tick on a part of a response frame short of the whole completes no Response, and the rest of the frame still
completes the frame's one (42_parser.md R210). -/
theorem State.tick_partOfFrame {s : State} (hlisten : Listening s) {st fn : Byte} {ds later : List Byte}
    (hds : ds.length ≤ 255) (hframe : s.env.rx ++ later = responseFrame st fn ds) (hlater : later ≠ []) :
    s.tick = s.countTick.lineStep.clearRx.feed s.env.rx
      ∧ ∃ p, s.tick.feed later = (s.countTick.lineStep.clearRx.setReady [responseOf st fn ds]).setParser p := by
  obtain ⟨hopen, haddr, hdata, hready, hdepth, -⟩ := hlisten
  generalize hline : s.countTick.lineStep.clearRx = a
  have haddr' : a.parser.state = .address := by simpa [← hline]
  have hdata' : a.parser.data.length = 255 := by simpa [← hline]
  have hready' : a.ready = [] := by simpa [← hline]
  have hpart : (a.feed s.env.rx).ready = [] :=
    (State.feed_ready_of_partOfFrame haddr' hdata' hds hframe hlater).trans hready'
  have htick : s.tick = a.feed s.env.rx := hline ▸ State.tick_of_noResponse hopen (hline ▸ hpart)
  obtain ⟨p, hwhole⟩ := State.feed_responseFrame haddr' hdata'
    (by simpa [← hline, hready] using Nat.lt_of_succ_le hdepth) st fn hds
  rw [← hframe, State.feed_append, ← htick, hready'] at hwhole
  exact ⟨htick, p, hwhole⟩

/-- A tick whose waiting bytes complete one Response with a value, while the head read awaits below its threshold,
resolves that read; of the flags it raises those that the bytes raise. -/
theorem State.tick_resolves_awaiting {s : State} {bs : List Byte} {h : PendingRequest} {rest : List PendingRequest}
    {r : Response} {v : Word} (hopen : s.env.isOpen = true) (hreads : s.pendingReads = h :: rest)
    (hbelow : h.ticksWaited + 1#32 < h.timeoutTicks) (hlen : s.results.length = s.params.nMotors)
    (hm : s.HasMotor h.motorId.toNat) (hready : (s.feed bs).ready = [r]) (hvalue : decode32 r = some v) :
    (s.withRx bs).tick.pendingReads = rest ∧ (s.withRx bs).tick.err = (s.feed bs).err
      ∧ (s.withRx bs).tick.cntResolved = s.cntResolved + 1
      ∧ ∀ m, (s.withRx bs).tick.result m =
          if m = h.motorId.toNat then applied (s.result m) h.kind v else s.result m := by
  obtain ⟨h', hreads', hmotor, hkind, herr, -⟩ :=
    State.lineStep_keepsHead (s := (s.withRx bs).countTick) hreads (.inr hbelow)
  generalize hline : (s.withRx bs).countTick.lineStep.clearRx = a
  have haparams : a.params = s.params := by simp [← hline]
  have hacnt : a.cntResolved = s.cntResolved := by simp [← hline]
  have haresults : a.results = s.results := by simp [← hline]
  have hareads : a.pendingReads = h' :: rest := by rw [← hline]; exact hreads'
  have hfeed (c : Nat) : (a.feed bs).ready = (s.feed bs).ready
      ∧ (a.feed bs).err.getLsbD c = (s.feed bs).err.getLsbD c :=
    State.feed_congr_ready bs (by simp [← hline]) (by simp [← hline]) (by rw [haparams])
      (by simp [← hline, herr])
  have htick : (s.withRx bs).tick = ((a.feed bs).setReady []).correlate r := by
    rw [← hline]
    exact State.tick_of_oneResponse (s := s.withRx bs) hopen (hline ▸ (hfeed 0).1.trans hready)
  obtain ⟨hrest, huerr, hcnt, hresult⟩ := State.correlate_value_resolves (s := (a.feed bs).setReady []) (h := h')
    (by simpa using hareads) hvalue (by simpa [haparams, haresults] using hlen)
    (by simpa [State.HasMotor, haparams, hmotor] using hm)
  rw [htick]
  refine ⟨hrest, huerr.trans (BitVec.eq_of_getLsbD_eq fun c _ => (hfeed c).2), hcnt.trans ?_, fun m => ?_⟩
  · simp [hacnt]
  · rw [hresult m, hmotor, hkind, State.result_congr (s := s) (by simp [haparams]) (by simp [haresults])]

theorem State.lineStep_of_created {s : State} {h : PendingRequest} {rest : List PendingRequest}
    (hreads : s.pendingReads = h :: rest) (hcreated : h.state = .created) : s.lineStep = s.sendRead h rest := by
  simp [State.lineStep, hreads, hcreated]

/-- Settles O60: the parser's run is cut at the tick; the first tick completes no Response, the second the one of the
whole frame. -/
theorem framesMaySpanTicks : Obligations.FramesMaySpanTicks := by
  refine ⟨fun s later hopen => ?_, ?_⟩
  · exact ⟨s.tick, _, exec_tick s, exec_tick _, State.tick_tick_feed hopen later (by decide) (by decide) (by decide)⟩
  intro s h rest st fn v later hlisten hreads hcreated hbelow hmin hmax hframe hlater
  have ⟨hopen, _, _, _, _, hlen⟩ := hlisten
  obtain ⟨htick, p, hwhole⟩ := State.tick_partOfFrame hlisten (by simp [bytes32]) hframe hlater
  have hline : s.countTick.lineStep = s.countTick.sendRead h rest := State.lineStep_of_created hreads hcreated
  have htreads : s.tick.pendingReads = { h with state := .awaitingResponse } :: rest := by
    simp [htick, hline, State.sendRead]
  have htresults : s.tick.results = s.results := by simp [htick]
  have htcnt : s.tick.cntResolved = s.cntResolved := by simp [htick]
  have herr : s.countTick.lineStep.err = s.err := by simp [hline, State.sendRead]
  obtain ⟨hrest, huerr, hcnt, hresult⟩ := State.tick_resolves_awaiting (s.tick_env_isOpen.trans hopen) htreads hbelow
    (by simpa [htresults] using hlen) (by simpa [State.HasMotor] using ⟨hmin, hmax⟩) (congrArg State.ready hwhole)
    (decode32_responseOf_bytes32 st fn v)
  refine ⟨s.tick, (s.tick.withRx later).tick, exec_tick s, exec_tick _, htreads, htresults, hrest, ?_,
    hcnt.trans (congrArg (· + 1) htcnt), fun m => ?_⟩
  · exact (huerr.trans (congrArg State.err hwhole)).trans herr
  · rw [hresult m, State.result_congr (s := s) s.tick_params htresults]

end Sys2Proof.Machine

end

/-! # The scheduler: O14, O20, O23 to O28, O31, O32, O35 to O37, O40, O43 and O59 -/

section

namespace Sys2Proof.Machine

open Sys2Proof Sys2Proof.Claims

/-! ## The line step, case by case (43_scheduler.md R252 to R254) -/

theorem buildRead_eq_readFrame (st : Byte) (addr : Half) : buildRead st addr = readFrame st addr := by
  rw [buildRead, withTrailer_eq_frameOf, bodyRead_eq_bytes, readFrame]

/-- What sending the head read changes, with the request byte by byte. -/
theorem State.sendRead_eq (s : State) (h : PendingRequest) (rest : List PendingRequest) :
    s.sendRead h rest = { s with
      cntTx := s.cntTx + 1, pendingReads := { h with state := .awaitingResponse } :: rest
      env := { s.env with tx := s.env.tx ++ [readFrame h.motorId (readAddr s.params h.kind)] } } := by
  rw [← buildRead_eq_readFrame]
  rfl

/-- What sending the head write changes, with the frame byte by byte. -/
theorem State.sendWrite_eq (s : State) (body : List Byte) (rest : List (List Byte)) :
    s.sendWrite body rest = { s with
      cntTx := s.cntTx + 1, pendingWrites := rest, env := { s.env with tx := s.env.tx ++ [frameOf body] } } := by
  rw [← withTrailer_eq_frameOf]
  rfl

theorem State.lineStep_of_awaiting {s : State} {h : PendingRequest} {rest : List PendingRequest}
    (hreads : s.pendingReads = h :: rest) (hawaits : h.state = .awaitingResponse) :
    s.lineStep = s.awaitRead h rest := by
  simp [State.lineStep, hreads, hawaits]

theorem State.lineStep_of_write {s : State} {body : List Byte} {rest : List (List Byte)}
    (hreads : s.pendingReads = []) (hwrites : s.pendingWrites = body :: rest) :
    s.lineStep = s.sendWrite body rest := by
  simp [State.lineStep, hreads, hwrites]

theorem State.lineStep_of_idle {s : State} (hreads : s.pendingReads = []) (hwrites : s.pendingWrites = []) :
    s.lineStep = s := by
  simp [State.lineStep, hreads, hwrites]

theorem State.awaitRead_of_below {h : PendingRequest} (hbelow : h.ticksWaited + 1#32 < h.timeoutTicks) (s : State)
    (rest : List PendingRequest) :
    s.awaitRead h rest = { s with pendingReads := { h with ticksWaited := h.ticksWaited + 1#32 } :: rest } :=
  if_neg (BitVec.not_le.mpr hbelow)

theorem State.awaitRead_of_reached {h : PendingRequest} (hreached : h.timeoutTicks ≤ h.ticksWaited + 1#32) (s : State)
    (rest : List PendingRequest) :
    s.awaitRead h rest = { flagged s 4 with cntTimeout := s.cntTimeout + 1, pendingReads := rest } :=
  if_pos hreached

/-- An awaiting head transmits nothing and lets no write leave, whether it counts or is dropped. -/
theorem State.awaitRead_sendsNothing (s : State) (h : PendingRequest) (rest : List PendingRequest) :
    (s.awaitRead h rest).env = s.env ∧ (s.awaitRead h rest).cntTx = s.cntTx
      ∧ (s.awaitRead h rest).pendingWrites = s.pendingWrites := by
  rcases s.awaitRead_cases h rest with ⟨-, e⟩ | ⟨-, e⟩ <;> rw [e] <;> exact ⟨rfl, rfl, rfl⟩

/-! ## What a tick transmits (43_scheduler.md R263) -/

/-- Of an open tick, the line step alone transmits and lets a write leave, and the tick is counted. -/
theorem State.tick_transmits {s : State} (hopen : s.env.isOpen = true) :
    s.tick.env.tx = s.countTick.lineStep.env.tx ∧ s.tick.cntTx = s.countTick.lineStep.cntTx
      ∧ s.tick.pendingWrites = s.countTick.lineStep.pendingWrites ∧ s.tick.cntTick = s.cntTick + 1 := by
  simp [State.tick_open hopen]

/-- `t` comes from `s` by the transmission of one frame: the unsent head read's request, or with no read queued the
oldest write, which leaves the queue. -/
structure State.SendsOneFrame (s t : State) (f : List Byte) : Prop where
  isOpen : s.env.isOpen = true
  tx : t.env.tx = s.env.tx ++ [f]
  cntTx : t.cntTx = s.cntTx + 1
  frame : (∃ h hs, s.pendingReads = h :: hs ∧ h.state = .created ∧ t.pendingWrites = s.pendingWrites
      ∧ f = readFrame h.motorId (readAddr s.params h.kind))
    ∨ ∃ body, s.pendingReads = [] ∧ s.pendingWrites = body :: t.pendingWrites ∧ f = frameOf body

theorem State.tick_sendsAtMostOneFrame (s : State) :
    s.tick.env.tx = s.env.tx ∨ ∃ f, s.SendsOneFrame s.tick f := by
  by_cases hopen : s.env.isOpen = true
  · obtain ⟨htx, hcnt, hwrites, -⟩ := State.tick_transmits hopen
    rcases s.countTick.lineStep_cases with ⟨h, rest, hq, hst, e⟩ | ⟨h, rest, -, -, e⟩ | ⟨body, rest, hq, hw, e⟩
      | ⟨-, -, e⟩ <;> rw [e] at htx hcnt hwrites
    · rw [State.sendRead_eq] at htx hcnt hwrites
      exact .inr ⟨_, hopen, htx, hcnt, .inl ⟨h, rest, hq, hst, hwrites, rfl⟩⟩
    · exact .inl (htx.trans (congrArg Env.tx (State.awaitRead_sendsNothing _ h rest).1))
    · rw [State.sendWrite_eq] at htx hcnt hwrites
      exact .inr ⟨_, hopen, htx, hcnt, .inr ⟨body, hq, hwrites ▸ hw, rfl⟩⟩
    · exact .inl htx
  · rw [State.tick_closed (by simpa using hopen)]
    exact .inl rfl

theorem State.updateAt_sendsAtMostOneFrame (s : State) (now : Word) :
    (s.updateAt now).env.tx = s.env.tx ∨ ∃ f, s.SendsOneFrame (s.updateAt now) f := by
  rcases s.updateAt_cases now with ⟨-, e⟩ | ⟨-, e⟩ <;> rw [e]
  · exact .inl rfl
  · refine (s.setTimeRef (s.caughtUp now)).tick_sendsAtMostOneFrame.imp_right fun ⟨f, hf⟩ => ⟨f, ?_⟩
    exact ⟨hf.isOpen, hf.tx, hf.cntTx, hf.frame⟩

/-- Of the instructions, TICK and UPDATE alone transmit. -/
theorem exec_sendsAtMostOneFrame {i : Instr} {s t : State} (ht : exec i s = .next t) :
    t.env.tx = s.env.tx ∨ (i = .tick ∨ i = .update) ∧ ∃ f, s.SendsOneFrame t f := by
  obtain ⟨u, hu, heffect⟩ := exec_effect i s
  obtain rfl : u = t := Host.Outcome.next.inj (hu.symm.trans ht)
  cases heffect with
  | crc _ c => exact .inl rfl
  | read m _ k => rw [s.issueRead_frame]; exact .inl rfl
  | write _ body => rw [s.enqueueWrite_frame]; exact .inl rfl
  | cancel => rw [s.cancelWrite_frame]; exact .inl rfl
  | stage k id => rw [s.stage_frame]; exact .inl rfl
  | tick => exact s.tick_sendsAtMostOneFrame.imp_right fun h => ⟨.inl rfl, h⟩
  | update => exact (s.updateAt_sendsAtMostOneFrame s.now).imp_right fun h => ⟨.inr rfl, h⟩
  | wire _ bs => exact .inl rfl

/-- The word of TICK and the word of UPDATE (30_encoding.md R92). -/
theorem word_of_tick_or_update {w : Word} {i : Instr} (h : decode (.command w) = .ok i)
    (hi : i = .tick ∨ i = .update) : w = 0x40000000#32 ∨ w = 0x41000000#32 := by
  rcases hi with rfl | rfl
  · exact .inl ((decode_command_iff_of_mapWord rfl w).mp h)
  · exact .inr ((decode_command_iff_of_mapWord rfl w).mp h)

/-- A frame on the line is no command. -/
theorem frame_ne_tick_update {bs : List Byte} {i : Instr} (h : decode (.frame bs) = .ok i) :
    ¬ (i = .tick ∨ i = .update) := by
  have henc : encode i = .frame bs := (encodeOfDecodeIsIdentity _ i h).1
  rintro (rfl | rfl) <;> cases henc

/-- Of the actions from outside, only a write of the TICK or the UPDATE word to CMD transmits. -/
theorem State.perform_sendsAtMostOneFrame {s t : State} {e : Event} (ht : s.perform e = .next t) :
    t.env.tx = s.env.tx ∨ ∃ w f, e = .hostWrite 0x000#12 w ∧ (w = 0x40000000#32 ∨ w = 0x41000000#32)
      ∧ s.SendsOneFrame t f := by
  rcases s.perform_cases e with ⟨w, i, he, hw, hp⟩ | ⟨w, -, hp⟩ | ⟨bs, i, -, hbs, hp⟩ | ⟨bs, -, hp⟩
    | ⟨off, k, v, -, hp⟩ | ⟨off, v, -, hp⟩ | ⟨off, v, -, -, hp⟩ | ⟨off, v, -, hp⟩ | ⟨off, v, err, -, hp⟩ | ⟨off, -, hp⟩
    | ⟨b, -, hp⟩ | ⟨-, hp⟩ <;> rw [hp] at ht
  · refine (exec_sendsAtMostOneFrame ht).imp_right fun ⟨hi, f, hf⟩ => ⟨w, f, he, word_of_tick_or_update hw hi, ?_⟩
    exact ⟨hf.isOpen, hf.tx, hf.cntTx, hf.frame⟩
  · obtain rfl := Host.Outcome.next.inj ht; exact .inl rfl
  · exact (exec_sendsAtMostOneFrame ht).imp_right fun h => absurd h.1 (frame_ne_tick_update hbs)
  all_goals obtain rfl := Host.Outcome.next.inj ht; exact .inl rfl

/-- Settles O40: a step performs one action, and an action that transmits is a TICK or an UPDATE, whose line step sends
one frame. -/
theorem stepTransmitsAtMostOneFrame : Obligations.StepTransmitsAtMostOneFrame := by
  intro s t ht
  rcases step_cases s with ⟨-, hs⟩ | ⟨e, rest, hagenda, hs⟩ <;> rw [hs] at ht
  · obtain rfl := Host.Outcome.next.inj ht
    exact .inl rfl
  · refine (State.perform_sendsAtMostOneFrame ht).imp_right ?_
    rintro ⟨w, f, rfl, hw, hopen, htx, hcnt, hframe⟩
    exact ⟨f, w, rest, htx, hcnt, hopen, hagenda, hw, hframe⟩

/-! ## Commands on the two queues (43_scheduler.md R230, R234) -/

theorem State.hasMotor_iff (s : State) (m : Byte) :
    s.HasMotor m.toNat ↔ m ≠ 0#8 ∧ m.toNat ≤ s.params.nMotors := by
  have hpos : 1 ≤ m.toNat ↔ m ≠ 0#8 := by
    rw [Nat.one_le_iff_ne_zero, ne_eq, ne_eq, ← BitVec.toNat_inj, BitVec.toNat_zero]
  exact and_congr_left fun _ => hpos

theorem State.issueRead_of_noMotor {s : State} {m : Byte} (h : ¬ s.HasMotor m.toNat) (k : RegKind) :
    s.issueRead k m = flagged s 1 :=
  (if_pos h).trans (s.raise_eq_flagged .invAddr)

theorem State.issueRead_of_full {s : State} {m : Byte} (h : s.HasMotor m.toNat)
    (hfull : s.pendingReads.length = s.params.rqDepth) (k : RegKind) : s.issueRead k m = flagged s 2 :=
  ((if_neg (not_not.mpr h)).trans (if_pos hfull)).trans (s.raise_eq_flagged .qFull)

theorem State.issueRead_of_room {s : State} {m : Byte} (h : s.HasMotor m.toNat)
    (hroom : s.pendingReads.length ≠ s.params.rqDepth) (k : RegKind) :
    s.issueRead k m = { s with pendingReads := s.pendingReads ++
      [{ motorId := m, kind := k, state := .created, ticksWaited := 0#32, timeoutTicks := s.cfgTimeout }] } :=
  (if_neg (not_not.mpr h)).trans (if_neg hroom)

/-- Settles O14: both commands are ISSUE_READ, of which INVADDR, QFULL and the push are the three branches. -/
theorem readCommandsQueueARequest : Obligations.ReadCommandsQueueARequest := by
  intro s m i k base hi
  obtain ⟨hword, hexec⟩ : mapWord i = some (wordWithId base m) ∧ exec i s = .next (s.issueRead k m) := by
    simp only [List.mem_cons, Prod.mk.injEq, List.not_mem_nil, or_false] at hi
    rcases hi with ⟨rfl, rfl, rfl⟩ | ⟨rfl, rfl, rfl⟩
    all_goals exact ⟨rfl, rfl⟩
  rw [hexec]
  refine ⟨decode_command_iff_of_mapWord hword, refusesOtherWords_code .issueRead, fun hm => ?_,
    fun hm0 hm hfull => ?_, fun hm0 hm hroom => ?_⟩
  · have hnone : ¬ s.HasMotor m.toNat := fun h =>
      hm.elim ((s.hasMotor_iff m).mp h).1 (Nat.not_lt.mpr h.2)
    rw [State.issueRead_of_noMotor hnone]
  · rw [State.issueRead_of_full ((s.hasMotor_iff m).mpr ⟨hm0, hm⟩) hfull]
  · rw [State.issueRead_of_room ((s.hasMotor_iff m).mpr ⟨hm0, hm⟩) hroom]

/-- Settles O20: CANCEL takes the entry out, or there is none. -/
theorem cancelRemovesOneWrite : Obligations.CancelRemovesOneWrite := by
  refine ⟨decode_command_iff_of_mapWord rfl, refusesOtherWords_code .cancelWrite,
    fun s => ⟨fun hlt => ?_, fun hle => ?_⟩⟩
  · rcases s.cancelWrite_cases (s.arg 0).toNat with ⟨hmiss, -⟩ | ⟨-, e⟩
    · exact absurd hlt (Nat.not_lt.mpr hmiss)
    · rw [exec_cancel, e, List.eraseIdx_eq_take_drop_succ]
      rfl
  · rcases s.cancelWrite_cases (s.arg 0).toNat with ⟨-, e⟩ | ⟨hhit, -⟩
    · rw [exec_cancel, e, State.raise_eq_flagged]
      rfl
    · exact absurd hhit (Nat.not_lt.mpr hle)

/-! ## Nothing stops the block (43_scheduler.md R265) -/

theorem exec_answers (i : Instr) (s : State) : ∃ t, exec i s = .next t :=
  (exec_effect i s).imp fun _ h => h.1

theorem State.perform_answers (s : State) (e : Event) : ∃ t, s.perform e = .next t := by
  rcases s.perform_sides e with ⟨i, u, -, hp⟩ | ⟨u, hp, -⟩ | ⟨-, hp⟩ <;> rw [hp]
  · exact exec_answers i u
  · exact ⟨_, rfl⟩
  · exact ⟨_, rfl⟩

/-- Settles O43: a step is nothing or one action, and each action answers. -/
theorem theBlockNeverStops : Obligations.TheBlockNeverStops := by
  refine ⟨exec_answers, fun s => ?_, fun s hempty => by simp [step, hempty]⟩
  rcases step_cases s with ⟨-, hs⟩ | ⟨e, rest, -, hs⟩ <;> rw [hs]
  · exact ⟨s, rfl⟩
  · exact State.perform_answers _ e

/-! ## Several ticks in a row -/

theorem tickTimes_eq_iterate (n : Nat) (s : State) : tickTimes n s = .next (State.tick^[n] s) := by
  induction n generalizing s with
  | zero => rfl
  | succ n ih => exact ih s.tick

/-- Settles O23: a closed tick answers its state, so it may be repeated. -/
theorem closedTickChangesNothing : Obligations.ClosedTickChangesNothing := by
  intro s n hclosed
  have htick : s.tick = s := State.tick_closed hclosed
  rw [exec_tick, tickTimes_eq_iterate, Function.iterate_fixed htick, htick]
  exact ⟨rfl, rfl⟩

/-! ## One open tick (43_scheduler.md R250) -/

/-- Settles O24: the line step's four cases. -/
theorem openTickTransmits : Obligations.OpenTickTransmits := by
  intro s hopen
  obtain ⟨htx, hcnt, hwrites, hcount⟩ := State.tick_transmits hopen
  refine ⟨s.tick, exec_tick s, hcount, ?_⟩
  rw [htx, hcnt, hwrites]
  refine ⟨fun h rest hreads hcreated => ?_, fun h rest hreads hawaits => ?_, fun hreads body rest hqueue => ?_,
    fun hreads hqueue => ?_⟩
  · rw [State.lineStep_of_created (s := s.countTick) hreads hcreated, State.sendRead_eq]
    exact ⟨rfl, rfl, rfl⟩
  · obtain ⟨henv, hsame⟩ := s.countTick.awaitRead_sendsNothing h rest
    rw [State.lineStep_of_awaiting (s := s.countTick) hreads hawaits, henv]
    exact ⟨rfl, hsame⟩
  · rw [State.lineStep_of_write (s := s.countTick) hreads hqueue, State.sendWrite_eq]
    exact ⟨rfl, rfl, rfl⟩
  · rw [State.lineStep_of_idle (s := s.countTick) hreads hqueue]
    exact ⟨rfl, rfl, hqueue⟩

/-- Settles O25: a silent tick is its line step. -/
theorem silentTickResult : Obligations.SilentTickResult := by
  intro s hopen hrx hready
  rw [exec_tick, State.tick_silent hopen hrx hready]
  refine ⟨fun h rest hreads hcreated => ?_, fun h rest hreads hawaits hbelow => ?_,
    fun h rest hreads hawaits hreached => ?_, fun hreads body rest hqueue => ?_, fun hreads hqueue => ?_⟩
  · rw [State.lineStep_of_created (s := s.countTick) hreads hcreated, State.sendRead_eq]
    rfl
  · rw [State.lineStep_of_awaiting (s := s.countTick) hreads hawaits, State.awaitRead_of_below hbelow]
    rfl
  · rw [State.lineStep_of_awaiting (s := s.countTick) hreads hawaits, State.awaitRead_of_reached hreached]
    rfl
  · rw [State.lineStep_of_write (s := s.countTick) hreads hqueue, State.sendWrite_eq]
    rfl
  · rw [State.lineStep_of_idle (s := s.countTick) hreads hqueue]
    rfl

/-- After the line step the waiting bytes complete the same Responses and raise the same flags, TIMEOUT aside, as
before it. -/
theorem State.feed_afterLineStep (s : State) {c : Nat} (h4 : c ≠ 4) :
    (s.countTick.lineStep.clearRx.feed s.env.rx).ready = (s.feed s.env.rx).ready
      ∧ (s.countTick.lineStep.clearRx.feed s.env.rx).err.getLsbD c = (s.feed s.env.rx).err.getLsbD c :=
  State.feed_congr_ready s.env.rx (s := s.countTick.lineStep.clearRx) (by simp) (by simp) (by simp)
    (State.lineStep_err_getLsbD s.countTick h4)

/-- ROVF is set in a tick exactly if the waiting bytes set it (42_parser.md R207). -/
theorem State.tick_rovf {s : State} (hopen : s.env.isOpen = true) :
    s.tick.err.getLsbD 7 = (s.feed s.env.rx).err.getLsbD 7 := by
  rw [State.tick_eq_drainReady hopen, State.drainReady_err_getLsbD _ (by decide)]
  exact (s.feed_afterLineStep (by decide)).2

theorem State.tick_drains {s : State} (hopen : s.env.isOpen = true) : s.tick.ready = [] ∧ s.tick.env.rx = [] := by
  simp [State.tick_open hopen]

/-- Settles O27: step 5 over the waiting bytes, and the frame of a tick. -/
theorem openTickDrainsAndKeepsTheRest : Obligations.OpenTickDrainsAndKeepsTheRest := by
  intro s hopen
  obtain ⟨hready, hrx⟩ := State.tick_drains hopen
  obtain ⟨hparser, hcnt, hcrc⟩ := State.tick_feed hopen (c := 3) (by decide) (by decide) (by decide)
  exact ⟨s.tick, exec_tick s, hready, hrx, hparser, hcnt, hcrc, State.tick_rovf hopen, s.tick_params, s.tick_cmd,
    s.tick_args, s.tick_crcReg, s.tick_cfgInterval, s.tick_cfgTimeout, s.tick_timeRef, s.tick_rb, s.tick_env_isOpen,
    s.tick_env_reads, s.tick_env_agenda⟩

/-! ## The timeout (43_scheduler.md R231, R264) -/

/-- The read `h` sent and awaiting its response, with `k` ticks counted (10_state.md R42). -/
def PendingRequest.waited (h : PendingRequest) (k : Nat) : PendingRequest :=
  { h with state := .awaitingResponse, ticksWaited := BitVec.ofNat 32 k }

/-- `t` is reached from `s` on a silent line with the head read `h` sent and `k` ticks waited since, and no read has
timed out on the way. -/
structure State.Waiting (s t : State) (h : PendingRequest) (rest : List PendingRequest) (k : Nat) : Prop where
  isOpen : t.env.isOpen = true
  rx : t.env.rx = []
  ready : t.ready = []
  reads : t.pendingReads = h.waited k :: rest
  cntTimeout : t.cntTimeout = s.cntTimeout
  err : t.err = s.err

/-- The tick that sends the read begins the wait (43_scheduler.md R252). -/
theorem State.waiting_of_created {s : State} {h : PendingRequest} {rest : List PendingRequest}
    (hopen : s.env.isOpen = true) (hrx : s.env.rx = []) (hready : s.ready = []) (hreads : s.pendingReads = h :: rest)
    (hcreated : h.state = .created) (hzero : h.ticksWaited = 0#32) : s.Waiting s.tick h rest 0 := by
  rw [State.tick_silent hopen hrx hready, State.lineStep_of_created (s := s.countTick) hreads hcreated,
    State.sendRead_eq]
  exact ⟨hopen, hrx, hready, by rw [PendingRequest.waited, ← hzero], rfl, rfl⟩

/-- What a tick does to a read that waits is its `awaitRead`. -/
theorem State.Waiting.tick_eq {s t : State} {h : PendingRequest} {rest : List PendingRequest} {k : Nat}
    (hw : s.Waiting t h rest k) : t.tick = t.countTick.awaitRead (h.waited k) rest := by
  rw [State.tick_silent hw.isOpen hw.rx hw.ready]
  exact State.lineStep_of_awaiting (s := t.countTick) hw.reads rfl

theorem PendingRequest.ticksWaited_waited_add_one (h : PendingRequest) (k : Nat) :
    (h.waited k).ticksWaited + 1#32 = BitVec.ofNat 32 (k + 1) :=
  (BitVec.ofNat_add k 1).symm

/-- Below the threshold a tick counts one. -/
theorem State.Waiting.tick {s t : State} {h : PendingRequest} {rest : List PendingRequest} {k : Nat}
    (hw : s.Waiting t h rest k) (hk : k + 1 < h.timeoutTicks.toNat) : s.Waiting t.tick h rest (k + 1) := by
  have hbelow : (h.waited k).ticksWaited + 1#32 < (h.waited k).timeoutTicks := by
    rw [PendingRequest.ticksWaited_waited_add_one, BitVec.lt_def, BitVec.toNat_ofNat,
      Nat.mod_eq_of_lt (hk.trans h.timeoutTicks.isLt)]
    exact hk
  rw [hw.tick_eq, State.awaitRead_of_below hbelow, PendingRequest.ticksWaited_waited_add_one]
  exact ⟨hw.isOpen, hw.rx, hw.ready, rfl, hw.cntTimeout, hw.err⟩

/-- After the send tick and any number of ticks below the threshold the read still waits. -/
theorem State.waiting_iterate {s : State} {h : PendingRequest} {rest : List PendingRequest}
    (hsent : s.Waiting s.tick h rest 0) {k : Nat} (hk : k < h.timeoutTicks.toNat) :
    s.Waiting (State.tick^[k + 1] s) h rest k := by
  induction k with
  | zero => exact hsent
  | succ k ih =>
    rw [Function.iterate_succ_apply']
    exact (ih (by omega)).tick hk

/-- Settles O26: the send tick begins a wait of `n` ticks, of which the last drops the read. -/
theorem timeoutFallsOnTheExactTick : Obligations.TimeoutFallsOnTheExactTick := by
  intro s h rest hopen hrx hready hreads hcreated hzero hpos
  have hsent := State.waiting_of_created hopen hrx hready hreads hcreated hzero
  refine ⟨fun k hk => ?_, ?_⟩
  · have hw := State.waiting_iterate hsent hk
    exact ⟨_, tickTimes_eq_iterate _ s, hw.reads, hw.cntTimeout, hw.err⟩
  · obtain ⟨k, hn⟩ := Nat.exists_eq_add_of_le' hpos
    have hw := State.waiting_iterate hsent (k := k) (by omega)
    have hreached : (h.waited k).timeoutTicks ≤ (h.waited k).ticksWaited + 1#32 := by
      rw [PendingRequest.ticksWaited_waited_add_one, ← hn, BitVec.ofNat_toNat, BitVec.setWidth_eq]
      exact BitVec.le_refl _
    refine ⟨_, tickTimes_eq_iterate _ s, ?_⟩
    rw [hn, Function.iterate_succ_apply', hw.tick_eq, State.awaitRead_of_reached hreached]
    exact ⟨rfl, congrArg (· + 1) hw.cntTimeout, congrArg (· ||| 0x010#10) hw.err⟩

/-! ## The interval ticker (43_scheduler.md R261, R262) -/

theorem State.elapsed_toNat (s : State) (now : Word) :
    (s.elapsed now).toNat = (now.toNat + 2 ^ 32 - s.timeRef.toNat) % 2 ^ 32 := by
  rw [State.elapsed, BitVec.toNat_sub]
  omega

theorem State.fires_iff (s : State) (now : Word) : s.fires now ↔ s.cfgInterval.toNat ≤ (s.elapsed now).toNat :=
  BitVec.le_def

/-- The whole intervals that passed are no more than what passed, so they do not overflow. -/
theorem State.wholeIntervals_toNat (s : State) (now : Word) :
    (s.elapsed now / s.cfgInterval * s.cfgInterval).toNat
      = (s.elapsed now).toNat / s.cfgInterval.toNat * s.cfgInterval.toNat := by
  rw [BitVec.toNat_mul, BitVec.toNat_udiv]
  exact Nat.mod_eq_of_lt ((Nat.div_mul_le_self _ _).trans_lt (s.elapsed now).isLt)

theorem State.caughtUp_toNat (s : State) (now : Word) : (s.caughtUp now).toNat =
    (s.timeRef.toNat + (s.elapsed now).toNat / s.cfgInterval.toNat * s.cfgInterval.toNat) % 2 ^ 32 := by
  rw [State.caughtUp, BitVec.toNat_add, s.wholeIntervals_toNat]

/-- From the reference point moved forward, less than one interval has passed. -/
theorem State.elapsed_caughtUp {s : State} (h : s.cfgInterval ≠ 0#32) (now : Word) :
    ((s.setTimeRef (s.caughtUp now)).elapsed now).toNat < s.cfgInterval.toNat := by
  have hpos : 0 < s.cfgInterval.toNat := Nat.pos_of_ne_zero fun h0 => h (BitVec.eq_of_toNat_eq h0)
  have hrest := Nat.mod_lt (s.elapsed now).toNat hpos
  have hparts := Nat.div_add_mod' (s.elapsed now).toNat s.cfgInterval.toNat
  have helapsed := s.elapsed_toNat now
  have href := s.timeRef.isLt
  rw [State.elapsed_toNat, State.setTimeRef_timeRef, State.caughtUp_toNat]
  generalize (s.elapsed now).toNat / s.cfgInterval.toNat * s.cfgInterval.toNat = whole at hparts ⊢
  omega

/-- Once it has fired, the ticker does not fire again at the same time. -/
theorem State.not_fires_updateAt {s : State} (h : s.cfgInterval ≠ 0#32) (now : Word) :
    ¬ (s.updateAt now).fires now := by
  rcases s.updateAt_cases now with ⟨hno, e⟩ | ⟨-, e⟩ <;> rw [e]
  · exact hno
  · have hrest := State.elapsed_caughtUp h now
    rw [State.fires_iff, Nat.not_le, State.tick_cfgInterval, State.elapsed, State.tick_timeRef]
    exact hrest

@[simp] theorem State.updateAt_args (s : State) (now : Word) : (s.updateAt now).args = s.args := by
  rcases s.updateAt_cases now with ⟨-, e⟩ | ⟨-, e⟩ <;> simp [e]

theorem State.updateAt_of_not_fires {s : State} {now : Word} (h : ¬ s.fires now) : s.updateAt now = s :=
  if_neg h

theorem State.updateAt_of_fires {s : State} {now : Word} (h : s.fires now) :
    s.updateAt now = (s.setTimeRef (s.caughtUp now)).tick :=
  if_pos h

/-- Settles O35: below the interval the ticker does not fire; else it runs one tick from the reference point moved
forward, which the tick keeps. -/
theorem updateCatchesUpByWholeIntervals : Obligations.UpdateCatchesUpByWholeIntervals := by
  refine ⟨decode_command_iff_of_mapWord rfl, refusesOtherWords_code .update, fun s hinterval => ?_⟩
  have helapsed : (s.elapsed (s.arg 0)).toNat = (s.args.arg0.toNat + 2 ^ 32 - s.timeRef.toNat) % 2 ^ 32 :=
    s.elapsed_toNat (s.arg 0)
  rw [exec_update, ← helapsed]
  refine ⟨fun hbelow => ?_, fun hreached => ?_⟩
  · rw [State.updateAt_of_not_fires (mt (s.fires_iff _).mp (Nat.not_le.mpr hbelow))]
  · have hrest := State.elapsed_caughtUp hinterval (s.arg 0)
    rw [State.elapsed_toNat] at hrest
    rw [State.updateAt_of_fires ((s.fires_iff _).mpr hreached)]
    exact ⟨s.caughtUp (s.arg 0), _, exec_tick _, rfl, State.tick_timeRef _, s.caughtUp_toNat _, hrest⟩

/-- Settles O36: after the first UPDATE the ticker does not fire at that time. -/
theorem updateTwiceFiresOnce : Obligations.UpdateTwiceFiresOnce := by
  intro s hinterval
  have hnow : (s.updateAt (s.arg 0)).arg 0 = s.arg 0 := by rw [State.arg, State.updateAt_args, State.arg]
  refine ⟨_, exec_update s, ?_⟩
  rw [exec_update, hnow, State.updateAt_of_not_fires (State.not_fires_updateAt hinterval _)]

/-- Settles O37: the ticker fires or not, and the closed tick changes nothing. -/
theorem updateWhileClosedMovesOnlyTheReference : Obligations.UpdateWhileClosedMovesOnlyTheReference := by
  intro s hclosed
  rw [exec_update]
  rcases s.updateAt_cases (s.arg 0) with ⟨-, e⟩ | ⟨-, e⟩ <;> rw [e]
  · exact ⟨s.timeRef, rfl⟩
  · have hclosed' : (s.setTimeRef (s.caughtUp (s.arg 0))).env.isOpen = false := hclosed
    exact ⟨s.caughtUp (s.arg 0), congrArg Host.Outcome.next (State.tick_closed hclosed')⟩

/-! ## The reads after the line step (43_scheduler.md R252, R253) -/

@[simp] theorem State.lineStep_pendingReads (s : State) : s.lineStep.pendingReads = readsAfterLine s.pendingReads := by
  rcases s.lineStep_cases with ⟨h, rest, hreads, hst, e⟩ | ⟨h, rest, hreads, hst, e⟩ | ⟨body, rest, hreads, -, e⟩
    | ⟨hreads, -, e⟩
  · rw [e, State.sendRead_eq]
    simp [readsAfterLine, hreads, hst]
  · rcases s.awaitRead_cases h rest with ⟨hle, e'⟩ | ⟨hlt, e'⟩
    · simp [e, e', readsAfterLine, hreads, hst, hle]
    · simp [e, e', readsAfterLine, hreads, hst, BitVec.not_le.mpr hlt]
  · rw [e, State.sendWrite_eq]
    simp [readsAfterLine, hreads]
  · simp [e, readsAfterLine, hreads]

/-! ## Results of motors without a queued read (43_scheduler.md R256, R257) -/

/-- `q` holds no read for motor `m`. -/
def NoReadFor (m : Nat) (q : List PendingRequest) : Prop := ∀ r ∈ q, r.motorId.toNat ≠ m

theorem NoReadFor.tail {m : Nat} {q : List PendingRequest} (h : NoReadFor m q) : NoReadFor m q.tail :=
  fun r hr => h r (List.mem_of_mem_tail hr)

theorem NoReadFor.cons {m : Nat} {r : PendingRequest} {q : List PendingRequest} (hr : r.motorId.toNat ≠ m)
    (hq : NoReadFor m q) : NoReadFor m (r :: q) :=
  List.forall_mem_cons.mpr ⟨hr, hq⟩

/-- The line step queues no read for another motor. -/
theorem NoReadFor.readsAfterLine {m : Nat} {q : List PendingRequest} (h : NoReadFor m q) :
    NoReadFor m (readsAfterLine q) := by
  cases q with
  | nil => exact h
  | cons r rest =>
    obtain ⟨hr, hrest⟩ := List.forall_mem_cons.mp h
    simp only [Claims.readsAfterLine]
    split
    · exact .cons hr hrest
    · split_ifs
      · exact hrest
      · exact .cons hr hrest

theorem State.result_applyValue_of_ne (s : State) {m j : Nat} (hne : j ≠ m) (k : RegKind) (v : Word) :
    (s.applyValue m k v).result j = s.result j := by
  rw [State.applyValue_eq_modifyResult]
  exact s.result_modifyResult_of_ne hne _

theorem State.result_correlate_of_noReadFor {s : State} {m : Nat} (h : NoReadFor m s.pendingReads) (r : Response) :
    (s.correlate r).result m = s.result m := by
  rcases s.correlate_cases r with ⟨-, e⟩ | ⟨q, rest, -, -, e⟩ | ⟨q, rest, v, hreads, -, e⟩ <;> rw [e]
  · rfl
  · rfl
  · have hne : q.motorId.toNat ≠ m := h q (hreads ▸ List.mem_cons_self)
    exact (s.setReads rest).result_applyValue_of_ne hne.symm q.kind v

theorem State.result_drainReady_of_noReadFor (rs : List Response) {s : State} {m : Nat}
    (h : NoReadFor m s.pendingReads) : (s.drainReady rs).result m = s.result m := by
  induction rs generalizing s with
  | nil => rfl
  | cons r rs ih =>
    rw [State.drainReady_cons, ih (by simpa using h.tail)]
    exact State.result_correlate_of_noReadFor (s := s.setReady rs) h r

theorem State.result_tick_of_noReadFor {s : State} {m : Nat} (h : NoReadFor m s.pendingReads) :
    s.tick.result m = s.result m := by
  by_cases hopen : s.env.isOpen = true
  · rw [State.tick_eq_drainReady hopen, State.result_drainReady_of_noReadFor _ (by simpa using h.readsAfterLine)]
    exact State.result_congr (by simp) (by simp) m
  · rw [State.tick_closed (by simpa using hopen)]

/-- Settles O28: of the instructions, the ticks alone write result registers, and only those of reads they resolve. -/
theorem resultsChangeOnlyForQueuedReads : Obligations.ResultsChangeOnlyForQueuedReads := by
  intro s i m hnone
  obtain ⟨t, ht, heffect⟩ := exec_effect i s
  refine ⟨t, ht, ?_⟩
  cases heffect with
  | crc _ c => rfl
  | read n _ k => rw [s.issueRead_frame]; rfl
  | write _ body => rw [s.enqueueWrite_frame]; rfl
  | cancel => rw [s.cancelWrite_frame]; rfl
  | stage k id => rw [s.stage_frame]; rfl
  | tick => exact State.result_tick_of_noReadFor hnone
  | update =>
    rcases s.updateAt_cases s.now with ⟨-, e⟩ | ⟨-, e⟩ <;> rw [e]
    exact State.result_tick_of_noReadFor (s := s.setTimeRef (s.caughtUp s.now)) hnone
  | wire _ bs => rfl

/-! ## One Response without a value, or without a read (43_scheduler.md R256) -/

theorem decode32_responseOf_eq_none (st fn : Byte) {ds : List Byte} (hmax : ds.length ≤ 255) (hne : ds.length ≠ 4) :
    decode32 (responseOf st fn ds) = none := by
  have hcount : byteOf ds.length 0 ≠ 4#8 := by
    intro h
    have := congrArg BitVec.toNat h
    rw [byteOf_zero, BitVec.toNat_ofNat, BitVec.toNat_ofNat] at this
    omega
  exact if_neg hcount

theorem State.correlate_of_noValue {s : State} {h : PendingRequest} {rest : List PendingRequest} {r : Response}
    (hreads : s.pendingReads = h :: rest) (hvalue : decode32 r = none) :
    s.correlate r = { flagged s 5 with cntResolved := s.cntResolved + 1, pendingReads := rest } := by
  simp only [State.correlate, hreads, hvalue]
  rfl

theorem State.correlate_of_noReads {s : State} (hreads : s.pendingReads = []) (r : Response) :
    s.correlate r = s.countUnsol := by
  simp only [State.correlate, hreads]

/-- Settles O31: the line step keeps the head, the parser keeps the Response, and `Correlate` finds no value in it. -/
theorem otherLengthResolvesWithBadLen : Obligations.OtherLengthResolvesWithBadLen := by
  intro s h rest st fn ds hlisten hreads hwait hmax hne hrx
  obtain ⟨p, htick⟩ := State.tick_responseFrame hlisten hmax hrx
  obtain ⟨h', hreads', -, -, herr, -⟩ := State.lineStep_keepsHead (s := s.countTick) hreads hwait
  generalize hline : s.countTick.lineStep.clearRx.setParser p = u at htick
  have hureads : u.pendingReads = h' :: rest := by rw [← hline]; exact hreads'
  have huerr : u.err = s.err := by rw [← hline]; exact herr
  rw [State.correlate_of_noValue hureads (decode32_responseOf_eq_none st fn hmax hne)] at htick
  refine ⟨s.tick, exec_tick s, ?_⟩
  rw [htick]
  refine ⟨rfl, congrArg (· ||| 0x020#10) huerr, ?_, ?_⟩
  · simp [← hline]
  · simp [← hline, flagged]

/-- With no read queued the line step raises no flag. -/
theorem State.lineStep_err_of_noReads {s : State} (hreads : s.pendingReads = []) : s.lineStep.err = s.err := by
  cases hwrites : s.pendingWrites with
  | nil => rw [State.lineStep_of_idle hreads hwrites]
  | cons body rest => rw [State.lineStep_of_write hreads hwrites, State.sendWrite_eq]

/-- Settles O32: the parser keeps the Response, and `Correlate` counts it. -/
theorem unsolicitedResponseIsOnlyCounted : Obligations.UnsolicitedResponseIsOnlyCounted := by
  intro s st fn ds hlisten hreads hmax hrx
  obtain ⟨p, htick⟩ := State.tick_responseFrame hlisten hmax hrx
  have herr : s.countTick.lineStep.err = s.err := State.lineStep_err_of_noReads (s := s.countTick) hreads
  generalize hline : s.countTick.lineStep.clearRx.setParser p = u at htick
  have hureads : u.pendingReads = [] := by simp [← hline, hreads, readsAfterLine]
  rw [State.correlate_of_noReads hureads] at htick
  refine ⟨s.tick, exec_tick s, ?_⟩
  rw [htick]
  refine ⟨hureads, ?_, ?_, ?_, ?_⟩
  all_goals simp [← hline, herr]

/-! ## Valid frames one after another (43_scheduler.md R255) -/

/-- A valid frame taken from ADDRESS leaves the parser in ADDRESS and adds its Response to the ready queue, and
raises no flag. -/
theorem State.feed_responseFrame_address {s : State} (haddr : s.parser.state = .address)
    (hdata : s.parser.data.length = 255) (hroom : s.ready.length < s.params.readyDepth) (st fn : Byte) {ds : List Byte}
    (hds : ds.length ≤ 255) :
    (s.feed (responseFrame st fn ds)).parser.state = .address ∧ (s.feed (responseFrame st fn ds)).err = s.err
      ∧ (s.feed (responseFrame st fn ds)).ready = s.ready ++ [responseOf st fn ds] := by
  obtain ⟨p, hp, -, hwhole⟩ := State.feed_wholeFrame haddr hdata st fn
    (byteOf (crc16 ([st, fn, byteOf ds.length 0] ++ ds)).toNat 0)
    (byteOf (crc16 ([st, fn, byteOf ds.length 0] ++ ds)).toNat 1) hds
  obtain ⟨q, hfeed⟩ := State.feed_responseFrame haddr hdata hroom st fn hds
  have haddr' : (s.feed (responseFrame st fn ds)).parser.state = .address := by
    rw [responseFrame, frameOf, hwhole]
    exact hp
  refine ⟨haddr', ?_⟩
  rw [hfeed]
  exact ⟨rfl, rfl⟩

/-- The bytes of valid frames, one frame after another. -/
def framesOnLine (fs : List (Byte × Byte × List Byte)) : List Byte :=
  fs.flatMap fun f => responseFrame f.1 f.2.1 f.2.2

/-- Valid frames one after another become Responses in the order of arrival. -/
theorem State.feed_framesOnLine {fs : List (Byte × Byte × List Byte)} {s : State} (haddr : s.parser.state = .address)
    (hdata : s.parser.data.length = 255) (hds : ∀ f ∈ fs, f.2.2.length ≤ 255)
    (hroom : s.ready.length + fs.length ≤ s.params.readyDepth) :
    (s.feed (framesOnLine fs)).parser.state = .address ∧ (s.feed (framesOnLine fs)).err = s.err
      ∧ (s.feed (framesOnLine fs)).ready = s.ready ++ fs.map fun f => responseOf f.1 f.2.1 f.2.2 := by
  induction fs generalizing s with
  | nil => exact ⟨haddr, rfl, by simp [framesOnLine]⟩
  | cons f fs ih =>
    rw [List.length_cons] at hroom
    obtain ⟨haddr', herr', hready'⟩ := State.feed_responseFrame_address haddr hdata (by omega) f.1 f.2.1
      (hds f List.mem_cons_self)
    obtain ⟨haddr'', herr'', hready''⟩ := ih (s := s.feed (responseFrame f.1 f.2.1 f.2.2)) haddr' (by simpa using hdata)
      (fun g hg => hds g (List.mem_cons_of_mem _ hg)) (by rw [hready']; simp; omega)
    rw [framesOnLine, List.flatMap_cons, State.feed_append]
    refine ⟨haddr'', herr''.trans herr', hready''.trans ?_⟩
    rw [hready', List.append_assoc]
    rfl

/-! ## The drain pairs reads and Responses (43_scheduler.md R256, R257; 20_memory.md R81) -/

theorem word32_eq_ofNat (b0 b1 b2 b3 : Byte) : word32 b0 b1 b2 b3
    = BitVec.ofNat 32 (b0.toNat * 2 ^ 24 + b1.toNat * 2 ^ 16 + b2.toNat * 2 ^ 8 + b3.toNat) := by
  generalize hv : BitVec.ofNat 32 _ = v
  have hnum : v.toNat = b0.toNat * 2 ^ 24 + b1.toNat * 2 ^ 16 + b2.toNat * 2 ^ 8 + b3.toNat := by
    rw [← hv, BitVec.toNat_ofNat]
    omega
  have hbyte (b : Byte) (k : Nat) (h : v.toNat / 256 ^ k % 256 = b.toNat) : v.extractLsb' (8 * k) 8 = b := by
    rw [extractLsb'_eq_byteOf, byteOf]
    exact BitVec.eq_of_toNat_eq (by rw [BitVec.toNat_ofNat]; exact h)
  rw [← word32_be32 v, ← hbyte b0 3 (by omega), ← hbyte b1 2 (by omega), ← hbyte b2 1 (by omega),
    ← hbyte b3 0 (by omega)]

theorem responseValue_eq_decode32 (r : Response) : responseValue r = decode32 r := by
  rw [responseValue, decode32, word32_eq_ofNat]

theorem resolvedWith_of_noValue {r : Response} (hvalue : decode32 r = none) (m : Nat) (res : MotorResult)
    (h : PendingRequest) : resolvedWith m res (h, r) = res := by
  simp [resolvedWith, responseValue_eq_decode32, hvalue]

theorem resolvedWith_of_value {r : Response} {v : Word} (hvalue : decode32 r = some v) (m : Nat) (res : MotorResult)
    (h : PendingRequest) :
    resolvedWith m res (h, r) = if h.motorId.toNat = m then applied res h.kind v else res := by
  simp [resolvedWith, responseValue_eq_decode32, hvalue]

theorem State.correlate_result {s : State} {h : PendingRequest} {rest : List PendingRequest}
    (hreads : s.pendingReads = h :: rest) (hlen : s.results.length = s.params.nMotors) (r : Response) {m : Nat}
    (hm : s.HasMotor m) : (s.correlate r).result m = resolvedWith m (s.result m) (h, r) := by
  cases hvalue : decode32 r with
  | none =>
    rw [State.correlate_of_noValue hreads hvalue, resolvedWith_of_noValue hvalue]
    rfl
  | some v =>
    rw [State.correlate_of_value hreads hvalue, resolvedWith_of_value hvalue]
    by_cases hmotor : h.motorId.toNat = m
    · subst hmotor
      have happlied := State.result_applyValue (s := s.setReads rest) hlen hm h.kind v h.motorId.toNat
      rw [if_pos rfl] at happlied ⊢
      exact happlied
    · rw [if_neg hmotor]
      exact (s.setReads rest).result_applyValue_of_ne (Ne.symm hmotor) h.kind v

theorem State.correlate_cntResolved (s : State) (r : Response) :
    (s.correlate r).cntResolved = s.cntResolved + if s.pendingReads = [] then 0 else 1 := by
  rcases s.correlate_cases r with ⟨hreads, e⟩ | ⟨h, rest, hreads, -, e⟩ | ⟨h, rest, v, hreads, -, e⟩
  · simp [e, hreads]
  · simp [e, hreads]
  · rw [e, State.applyValue_frame]; simp [hreads]

theorem State.correlate_cntUnsol (s : State) (r : Response) :
    (s.correlate r).cntUnsol = s.cntUnsol + if s.pendingReads = [] then 1 else 0 := by
  rcases s.correlate_cases r with ⟨hreads, e⟩ | ⟨h, rest, hreads, -, e⟩ | ⟨h, rest, v, hreads, -, e⟩
  · simp [e, hreads]
  · simp [e, hreads]
  · rw [e, State.applyValue_frame]; simp [hreads]

/-- What the pairs make of a motor's result registers, one after another. -/
theorem State.drainReady_result (rs : List Response) {s : State} (hlen : s.results.length = s.params.nMotors) {m : Nat}
    (hm : s.HasMotor m) :
    (s.drainReady rs).result m = (s.pendingReads.zip rs).foldl (resolvedWith m) (s.result m) := by
  induction rs generalizing s with
  | nil => rw [List.zip_nil_right]; rfl
  | cons r rs ih =>
    rw [State.drainReady_cons, ih (by simpa [State.correlate_results_length] using hlen)
      (by simpa [State.HasMotor] using hm), State.correlate_pendingReads, State.setReady_pendingReads]
    cases hreads : s.pendingReads with
    | nil =>
      rw [State.correlate_of_noReads (s := s.setReady rs) hreads]
      rfl
    | cons h rest =>
      rw [State.correlate_result (s := s.setReady rs) hreads hlen r hm]
      rfl

/-- Each pair is one read resolved. -/
theorem State.drainReady_cntResolved (rs : List Response) (s : State) :
    (s.drainReady rs).cntResolved = s.cntResolved + BitVec.ofNat 32 (s.pendingReads.zip rs).length := by
  induction rs generalizing s with
  | nil => simp
  | cons r rs ih =>
    rw [State.drainReady_cons, ih, State.correlate_cntResolved, State.correlate_pendingReads,
      State.setReady_pendingReads, State.setReady_cntResolved]
    cases s.pendingReads with
    | nil => simp
    | cons h rest =>
      rw [List.zip_cons_cons, List.length_cons, Nat.add_comm _ 1, BitVec.ofNat_add, ← BitVec.add_assoc]
      rfl

/-- Each Response left over is unsolicited. -/
theorem State.drainReady_cntUnsol (rs : List Response) (s : State) :
    (s.drainReady rs).cntUnsol = s.cntUnsol + BitVec.ofNat 32 (rs.length - s.pendingReads.length) := by
  induction rs generalizing s with
  | nil => simp
  | cons r rs ih =>
    rw [State.drainReady_cons, ih, State.correlate_cntUnsol, State.correlate_pendingReads,
      State.setReady_pendingReads, State.setReady_cntUnsol]
    cases s.pendingReads with
    | nil =>
      rw [if_pos rfl, List.tail_nil, List.length_nil, Nat.sub_zero, Nat.sub_zero, List.length_cons, Nat.add_comm _ 1,
        BitVec.ofNat_add, ← BitVec.add_assoc]
      rfl
    | cons h rest => simp

/-- BADLEN is raised exactly if some pair has no value. -/
theorem State.drainReady_badLen (rs : List Response) (s : State) :
    (s.drainReady rs).err.getLsbD 5 = true ↔
      s.err.getLsbD 5 = true ∨ ∃ pair ∈ s.pendingReads.zip rs, responseValue pair.2 = none := by
  induction rs generalizing s with
  | nil => simp
  | cons r rs ih =>
    rw [State.drainReady_cons, ih, State.correlate_err_getLsbD, State.correlate_pendingReads,
      State.setReady_pendingReads, State.setReady_err]
    cases s.pendingReads with
    | nil => simp
    | cons h rest => simp [or_assoc, responseValue_eq_decode32, -BitVec.getLsbD_eq_getElem]

/-- Settles O59: the parser keeps each frame's Response, and the drain pairs the Responses with the reads that the line
step leaves. -/
theorem responsesResolveReadsInOrder : Obligations.ResponsesResolveReadsInOrder := by
  refine ⟨fun s fs haddr hdata hds hroom => ?_, fun s hopen hlen => ?_⟩
  · obtain ⟨haddr', herr, hready⟩ := State.feed_framesOnLine haddr hdata hds hroom
    refine ⟨haddr', herr, ?_⟩
    rw [framesOnLine] at hready
    rw [hready, List.take_left, List.drop_left, List.map_map]
    exact ⟨rfl, rfl⟩
  · have htick := State.tick_eq_drainReady hopen
    rw [(s.feed_afterLineStep (c := 5) (by decide)).1] at htick
    generalize (s.feed s.env.rx).ready = rs at htick
    generalize hfed : s.countTick.lineStep.clearRx.feed s.env.rx = u at htick
    have hreads : u.pendingReads = readsAfterLine s.pendingReads := by simp [← hfed]
    have hparams : u.params = s.params := by simp [← hfed]
    have hresults : u.results = s.results := by simp [← hfed]
    have hbadLen : u.err.getLsbD 5 = s.err.getLsbD 5 := by
      rw [← hfed, State.feed_err_getLsbD _ (by decide) (by decide)]
      exact State.lineStep_err_getLsbD s.countTick (by decide)
    refine ⟨s.tick, exec_tick s, ?_⟩
    rw [htick, ← hreads, ← hbadLen]
    refine ⟨u.drainReady_pendingReads rs, ?_, ?_, u.drainReady_badLen rs, fun m hmin hmax => ?_⟩
    · rw [State.drainReady_cntResolved]
      simp [← hfed]
    · rw [State.drainReady_cntUnsol]
      simp [← hfed]
    · have hmotor : u.HasMotor m := by
        rw [State.HasMotor, hparams]
        exact ⟨hmin, hmax⟩
      rw [State.drainReady_result rs (by rw [hresults, hparams, hlen]) hmotor, State.result_congr hparams hresults]

end Sys2Proof.Machine

end

/-! # Staging and results: O21, O53 and O54 -/

section

namespace Sys2Proof.Machine

open Sys2Proof Sys2Proof.Claims

/-! ## STAGE (44_staging_and_results.md R290) -/

theorem exec_stageOf (k : RbKind) (m : Byte) (s : State) :
    exec (stageOf k m) s = .next (s.stage k m.toNat (s.arg 0)) := by
  cases k <;> rfl

theorem mapWord_stageOf (k : RbKind) (m : Byte) :
    mapWord (stageOf k m) = some (wordWithId (0x30000000 + 0x10000 * kindIndex k) m) := by
  cases k <;> rfl

theorem State.stage_of_above {s : State} {m : Nat} (h : s.params.nMotors < m) (k : RbKind) (v : Word) :
    s.stage k m v = flagged s 1 := by
  rcases s.stage_cases k m v with ⟨h0, -⟩ | ⟨hm, -⟩ | ⟨-, e⟩
  · omega
  · exact absurd hm.2 (Nat.not_le.mpr h)
  · exact e.trans (s.raise_eq_flagged .invAddr)

/-- STAGE to one slot or to all of them is one update of the buffer, which keeps its size and reads back `v` in the
slots `m` stands for. -/
theorem State.stage_of_le {s : State} (hsized : s.rb.Sized s.params.nMotors) {m : Nat} (h : m ≤ s.params.nMotors)
    (k : RbKind) (v : Word) :
    ∃ rb, s.stage k m v = s.setRb rb ∧ rb.Sized s.params.nMotors ∧
      ∀ k' j, (s.setRb rb).rbValue k' j =
        if k' = k ∧ (m = 0 ∨ m = j) ∧ s.HasMotor j then v else s.rbValue k' j := by
  rcases s.stage_cases k m v with ⟨rfl, e⟩ | ⟨hm, e⟩ | ⟨hlt, -⟩
  · refine ⟨_, e, hsized.setBank k List.length_replicate, fun k' j => ?_⟩
    simp [s.rbValue_all]
  · refine ⟨_, e, hsized.setBank k (by rw [List.length_set, hsized.bank_length]), fun k' j => ?_⟩
    have hslot : (m = 0 ∨ m = j) ∧ s.HasMotor j ↔ m = j := by
      constructor
      · rintro ⟨rfl | rfl, -⟩
        · exact absurd hm.1 (by decide)
        · rfl
      · rintro rfl
        exact ⟨.inr rfl, hm⟩
    simp only [State.rbValue_set hsized hm, hslot]
  · exact absurd h (Nat.not_le.mpr hlt)

/-- Settles O21: the word by the opcode map; a legal slot number writes its slots, one above N_MOTORS raises INVADDR. -/
theorem stageWritesItsSlots : Obligations.StageWritesItsSlots := by
  intro s k m hsized
  refine ⟨decode_command_iff_of_mapWord (mapWord_stageOf k m), refusesOtherWords_code .stage, fun hle => ?_,
    fun hlt => ?_⟩
  · obtain ⟨rb, hstage, hsized', hread⟩ := State.stage_of_le hsized hle k (s.arg 0)
    have hzero : m.toNat = 0 ↔ m = 0#8 := by rw [← BitVec.toNat_inj, BitVec.toNat_zero]
    simp only [hzero] at hread
    exact ⟨rb, by rw [exec_stageOf, hstage]; rfl, hsized', hread⟩
  · rw [exec_stageOf, State.stage_of_above hlt]

/-! ## The status decode (44_staging_and_results.md R295, R296) -/

/-- A mask of one bit tests that bit. -/
theorem and_twoPow_bne_zero (w : Word) {n : Nat} (hn : n < 32) :
    ((w &&& BitVec.twoPow 32 n) != 0#32) = w.getLsbD n := by
  have hmask : BitVec.twoPow 32 n ≠ 0#32 := fun h => by
    simpa [hn] using congrArg (BitVec.getLsbD · n) h
  rw [BitVec.and_twoPow]
  cases w.getLsbD n
  · simp
  · simpa using hmask

@[simp] theorem torqueLimited_eq_getLsbD (w : Word) : torqueLimited w = w.getLsbD 15 :=
  and_twoPow_bne_zero w (n := 15) (by decide)

@[simp] theorem moving_eq_getLsbD (w : Word) : moving w = w.getLsbD 13 :=
  and_twoPow_bne_zero w (n := 13) (by decide)

@[simp] theorem busy_eq_getLsbD (w : Word) : busy w = w.getLsbD 8 :=
  and_twoPow_bne_zero w (n := 8) (by decide)

@[simp] theorem alarm_eq_getLsbD (w : Word) : alarm w = w.getLsbD 7 :=
  and_twoPow_bne_zero w (n := 7) (by decide)

@[simp] theorem readyBit_eq_getLsbD (w : Word) : readyBit w = w.getLsbD 5 :=
  and_twoPow_bne_zero w (n := 5) (by decide)

/-! ## FLAGS (10_state.md R39) -/

theorem State.hostRead_flags (s : State) {m : Nat} (hm : m < 64) :
    s.hostRead (BitVec.ofNat 12 (0x0A0 + m)) = s.flagsView m :=
  State.hostRead_of_ofOffset (WindowReg.ofOffset_flags hm) s

theorem State.result_of_hasMotor {s : State} {m : Nat} (hm : s.HasMotor m) :
    s.result m = s.results.getD (m - 1) MotorResult.reset :=
  if_pos hm

theorem State.flagsView_zero (s : State) : s.flagsView 0 = bitAt s.isReadyAll 13 := rfl

theorem State.flagsView_of_above {s : State} {m : Nat} (h : s.params.nMotors < m) : s.flagsView m = 0#32 := by
  rw [State.flagsView, if_neg (by omega), if_neg (by omega)]

/-- FLAGS of a motor bit by bit. -/
theorem State.getLsbD_flagsView {s : State} {m : Nat} (hm : s.HasMotor m) {i : Nat} (hi : i < 32) :
    (s.flagsView m).getLsbD i =
      ((decide (i = 0) && (s.result m).svalid) || (decide (i = 1) && (s.result m).pvalid)
        || (decide (i = 8) && (s.result m).stat.getLsbD 15) || (decide (i = 9) && (s.result m).stat.getLsbD 13)
        || (decide (i = 10) && (s.result m).stat.getLsbD 8) || (decide (i = 11) && (s.result m).stat.getLsbD 7)
        || (decide (i = 12) && (s.result m).stat.getLsbD 5) || (decide (i = 13) && s.isReady m)) := by
  obtain ⟨hpos, hle⟩ := hm
  rw [State.flagsView, if_neg (by omega), if_pos hle]
  simp [getLsbD_bitAt, hi, -BitVec.getLsbD_eq_getElem]

theorem State.flagsView_reservedLow {s : State} {m : Nat} (hm : s.HasMotor m) :
    (s.flagsView m).extractLsb' 2 6 = 0#6 := by
  refine extractLsb'_eq_of_getLsbD fun i hi => ?_
  rw [State.getLsbD_flagsView hm (by omega)]
  interval_cases i <;> simp

theorem State.flagsView_reservedHigh {s : State} {m : Nat} (hm : s.HasMotor m) :
    (s.flagsView m).extractLsb' 14 18 = 0#18 := by
  refine extractLsb'_eq_of_getLsbD fun i hi => ?_
  rw [State.getLsbD_flagsView hm (by omega)]
  interval_cases i <;> simp

theorem State.flagsView_ready {s : State} {m : Nat} (hm : s.HasMotor m) :
    (s.flagsView m).getLsbD 13 = s.isReady m := by
  simp [State.getLsbD_flagsView hm, -BitVec.getLsbD_eq_getElem]

theorem State.isReady_eq_getLsbD (s : State) (m : Nat) :
    s.isReady m = (!(s.result m).stat.getLsbD 15 && !(s.result m).stat.getLsbD 13 && !(s.result m).stat.getLsbD 8
      && !(s.result m).stat.getLsbD 7 && (s.result m).stat.getLsbD 5) := by
  simp only [State.isReady, isReadyWord, torqueLimited_eq_getLsbD, moving_eq_getLsbD, busy_eq_getLsbD,
    alarm_eq_getLsbD, readyBit_eq_getLsbD]

/-- Settles O53: every field from the bits of FLAGS. -/
theorem flagsFields : Obligations.FlagsFields := by
  intro s m hpos hle hlt
  have hm : s.HasMotor m := ⟨hpos, hle⟩
  simp only [s.hostRead_flags hlt, ← State.result_of_hasMotor hm]
  refine ⟨?_, ?_, State.flagsView_reservedLow hm, ?_, ?_, ?_, ?_, ?_,
    (State.flagsView_ready hm).trans (s.isReady_eq_getLsbD m), State.flagsView_reservedHigh hm⟩
  all_goals simp [State.getLsbD_flagsView hm, -BitVec.getLsbD_eq_getElem]

/-! ## FLAGS of the broadcast id (44_staging_and_results.md R297) -/

theorem State.isReadyAll_iff (s : State) : s.isReadyAll = true ↔ ∀ m, s.HasMotor m → s.isReady m = true := by
  simp only [State.isReadyAll, List.all_eq_true, List.mem_range]
  constructor
  · rintro h m ⟨hpos, hle⟩
    rw [← Nat.sub_add_cancel hpos]
    exact h (m - 1) (by omega)
  · exact fun h j hj => h (j + 1) ⟨by omega, by omega⟩

/-- The ready bit's field is 0 outside bit 13. -/
theorem bitAt_ready_and_not (b : Bool) : bitAt b 13 &&& ~~~0x00002000#32 = 0#32 := by
  cases b <;> decide

/-- Settles O54: bit 13 of FLAGS[0] is the conjunction of the motors' own bits 13. -/
theorem broadcastReadyIsTheConjunction : Obligations.BroadcastReadyIsTheConjunction := by
  intro s hmax
  have hzero : s.hostRead 0x0A0#12 = bitAt s.isReadyAll 13 := s.hostRead_flags (m := 0) (by decide)
  have hready : (bitAt s.isReadyAll 13).getLsbD 13 = s.isReadyAll := by
    simp [getLsbD_bitAt, -BitVec.getLsbD_eq_getElem]
  rw [hzero, hready, s.isReadyAll_iff]
  refine ⟨forall_congr' fun m => ?_, bitAt_ready_and_not _, fun m habove hlt => ?_⟩
  · rw [← and_imp]
    refine imp_congr_right fun hm => ?_
    rw [s.hostRead_flags (Nat.lt_of_le_of_lt hm.2 hmax), State.flagsView_ready hm]
  · rw [s.hostRead_flags hlt, State.flagsView_of_above habove]

end Sys2Proof.Machine

end

/-! # Exceptions: O22 and O47 -/

section

namespace Sys2Proof.Machine

open Sys2Proof Sys2Proof.Claims

/-! ## A refused command changes nothing but ERR (60_exceptions.md R343, R346) -/

/-- `t` is what a command makes of `s`: with no new error, or refused with INVADDR, QFULL or CANCELMISS alone. -/
def State.KeepsErrOrIsRefused (s t : State) : Prop :=
  t.err = s.err ∨ ∃ code ∈ [1, 2, 9], t = flagged s code

/-- Raising INVADDR, QFULL or CANCELMISS is such a refusal. -/
theorem State.keepsErrOrIsRefused_raise (s : State) {e : ErrFlag} (he : e.code ∈ [1, 2, 9]) :
    s.KeepsErrOrIsRefused (s.raise e) :=
  .inr ⟨e.code, he, s.raise_eq_flagged e⟩

theorem State.keepsErrOrIsRefused_issueRead (s : State) (k : RegKind) (m : Byte) :
    s.KeepsErrOrIsRefused (s.issueRead k m) := by
  rcases s.issueRead_cases k m with ⟨-, e⟩ | ⟨-, -, e⟩ | ⟨-, -, e⟩ <;> rw [e]
  · exact s.keepsErrOrIsRefused_raise (e := .invAddr) (by decide)
  · exact s.keepsErrOrIsRefused_raise (e := .qFull) (by decide)
  · exact .inl rfl

theorem State.keepsErrOrIsRefused_enqueueWrite (s : State) (body : List Byte) :
    s.KeepsErrOrIsRefused (s.enqueueWrite body) := by
  rcases s.enqueueWrite_cases body with ⟨-, e⟩ | ⟨-, e⟩ <;> rw [e]
  · exact s.keepsErrOrIsRefused_raise (e := .qFull) (by decide)
  · exact .inl rfl

theorem State.keepsErrOrIsRefused_cancelWrite (s : State) (i : Nat) :
    s.KeepsErrOrIsRefused (s.cancelWrite i) := by
  rcases s.cancelWrite_cases i with ⟨-, e⟩ | ⟨-, e⟩ <;> rw [e]
  · exact s.keepsErrOrIsRefused_raise (e := .cancelMiss) (by decide)
  · exact .inl rfl

theorem State.keepsErrOrIsRefused_stage (s : State) (k : RbKind) (m : Nat) (v : Word) :
    s.KeepsErrOrIsRefused (s.stage k m v) := by
  rcases s.stage_cases k m v with ⟨-, e⟩ | ⟨-, e⟩ | ⟨-, e⟩ <;> rw [e]
  · exact .inl rfl
  · exact .inl rfl
  · exact s.keepsErrOrIsRefused_raise (e := .invAddr) (by decide)

/-- Settles O22: the shared operation of each command keeps ERR or is refused with one flag. -/
theorem refusedCommandsChangeOnlyErr : Obligations.RefusedCommandsChangeOnlyErr := by
  intro i s htick hupdate
  obtain ⟨t, ht, heffect⟩ := exec_effect i s
  refine ⟨t, ht, ?_⟩
  cases heffect with
  | crc _ c => exact .inl (s.setCrcReg_err c)
  | read m _ k => exact s.keepsErrOrIsRefused_issueRead k m
  | write _ body => exact s.keepsErrOrIsRefused_enqueueWrite body
  | cancel => exact s.keepsErrOrIsRefused_cancelWrite _
  | stage k id => exact s.keepsErrOrIsRefused_stage k _ _
  | tick => exact absurd rfl htick
  | update => exact absurd rfl hupdate
  | wire _ bs => exact .inl (s.receive_err bs)

/-! ## Writes that raise BADREG (60_exceptions.md R340) -/

/-- The registers a host write reaches, by the access types of 10_state.md R25. -/
def WindowReg.writable : WindowReg → Bool
  | .cmd | .arg _ | .err | .cfgInterval | .cfgTimeout => true
  | _ => false

/-- A write to any other register raises BADREG. -/
theorem State.hostWrite_of_not_writable {off : BitVec 12} (h : (WindowReg.ofOffset off).writable = false) (s : State)
    (v : Word) : s.hostWrite off v = .next (s.raise .badReg) := by
  unfold State.hostWrite
  cases hoff : WindowReg.ofOffset off with
  | cmd | arg | err | cfgInterval | cfgTimeout => rw [hoff] at h; contradiction
  | _ => rfl

/-- The offsets of CMD, ARG0..5, ERR, CFG_INTERVAL and CFG_TIMEOUT. -/
def writableOffsets : List Nat := [0x000, 0x001, 0x002, 0x003, 0x004, 0x005, 0x006, 0x009, 0x00A, 0x00B]

/-- Below POS, the writable registers stand at `writableOffsets`. -/
theorem WindowReg.mem_writableOffsets_of_low : ∀ o < 0x020, (lowRegs.getD o .reserved).writable = true →
    o ∈ writableOffsets := by
  decide

/-- Every offset from POS on is read-only or reserved. -/
theorem WindowReg.not_writable_of_high {off : BitVec 12} (h : ¬ off.toNat < 0x020) :
    (WindowReg.ofOffset off).writable = false := by
  unfold WindowReg.ofOffset
  simp only [if_neg h]
  split_ifs <;> rfl

theorem WindowReg.not_writable_of_not_mem {off : BitVec 12} (h : off.toNat ∉ writableOffsets) :
    (WindowReg.ofOffset off).writable = false := by
  by_cases hlow : off.toNat < 0x020
  · have hreg : WindowReg.ofOffset off = lowRegs.getD off.toNat .reserved := if_pos hlow
    rw [hreg]
    exact Bool.eq_false_iff.mpr fun hw => h (WindowReg.mem_writableOffsets_of_low _ hlow hw)
  · exact WindowReg.not_writable_of_high hlow

/-- Settles O47: the register at the offset is not writable, and BADREG is flag 8. -/
theorem readOnlyOffsetsRaiseBadReg : Obligations.ReadOnlyOffsetsRaiseBadReg := by
  intro s off v hoff
  rw [State.hostWrite_of_not_writable (WindowReg.not_writable_of_not_mem hoff) s v, State.raise_eq_flagged]
  rfl

end Sys2Proof.Machine

end

/-! # Reset and hazards: O33, O39 and O56 -/

section

namespace Sys2Proof.Machine

open Sys2Proof Sys2Proof.Claims

/-! ## The late response (70_reset_and_hazards.md R375) -/

/-- The line step of a tick that finds the awaiting head at its threshold drops that head with TIMEOUT; the next read
becomes the head and is not sent (43_scheduler.md R252). -/
theorem State.lineStep_of_timedOut {s : State} {h : PendingRequest} {rest : List PendingRequest}
    (hreads : s.pendingReads = h :: rest) (hawaits : h.state = .awaitingResponse)
    (hreached : h.timeoutTicks ≤ h.ticksWaited + 1#32) :
    s.lineStep = { flagged s 4 with cntTimeout := s.cntTimeout + 1, pendingReads := rest } :=
  (State.lineStep_of_awaiting hreads hawaits).trans (State.awaitRead_of_reached hreached s rest)

/-- Settles O33: the line step drops the head, and `Correlate` gives the Response to the read behind it. -/
theorem lateResponseResolvesTheNextRead : Obligations.LateResponseResolvesTheNextRead := by
  intro s h h2 rest st fn v hlisten hreads hawaits hreached hmin hmax hrx
  have ⟨_, _, _, _, _, hlen⟩ := hlisten
  obtain ⟨p, htick⟩ := State.tick_responseFrame hlisten (by simp [bytes32]) hrx
  have hline := State.lineStep_of_timedOut (s := s.countTick) hreads hawaits hreached
  generalize hu : s.countTick.lineStep.clearRx.setParser p = u at htick
  rw [hline] at hu
  have hureads : u.pendingReads = h2 :: rest := by rw [← hu]; rfl
  obtain ⟨hrest, herr, hresolved, hresult⟩ := State.correlate_value_resolves hureads
    (decode32_responseOf_bytes32 st fn v) (by rw [← hu]; exact hlen) (by rw [← hu]; exact ⟨hmin, hmax⟩)
  refine ⟨s.tick, exec_tick s, ?_⟩
  rw [htick]
  refine ⟨hrest, herr.trans ?_, ?_, ?_, hresolved.trans ?_, fun m => (hresult m).trans ?_⟩
  · rw [← hu]; rfl
  · simp [← hu, flagged]
  · simp [← hu]
  · rw [← hu]; rfl
  · rw [← hu]; rfl

/-! ## Reset (70_reset_and_hazards.md R370, R371) -/

/-- Settles O39. -/
theorem resetMeetsTheInvariant : Obligations.ResetMeetsTheInvariant :=
  fun _ e hp => State.inv_resetWith hp e

/-- The reset event is the reset of the block, under the same parameters and surroundings. -/
@[simp] theorem State.perform_reset (s : State) : s.perform .reset = .next (State.resetWith s.params s.env) := rfl

/-- Settles O56: the step takes the reset event from the agenda and performs it. -/
theorem resetLeavesTheTransport : Obligations.ResetLeavesTheTransport := by
  intro s rest hagenda
  rw [step_of_agenda hagenda, State.perform_reset]
  rfl

end Sys2Proof.Machine

end
